-- ==== Sys2Proof/Word.lean ====
section
/-! DEFINITION. The word types of DISP7 (00_scope.md R7, R8, R10): every value is unsigned, so a
`BitVec` of the width the spec gives says all there is to say of it. -/

namespace Sys2Proof

/-- An 8-bit character code or glyph code (R72, R74). -/
abbrev Byte := BitVec 8

/-- A whole 16-bit register on the bus (R52, `DATA_W`). -/
abbrev Word := BitVec 16

/-- An 8-bit register address (R32, `ADDR_W`). -/
abbrev Addr := BitVec 8

/-- A 26-bit op word, the name of one event of the trace (R70). -/
abbrev OpWord := BitVec 26

/-- Bits 23:0 of an op word, which TICK and RESET require to be zero (R70, R80). -/
abbrev Payload := BitVec 24

/-- The index of a writable buffer cell, `A[4:0]` (R71). -/
abbrev CellIndex := BitVec 5

/-- Characters a host writes into the Render Buffer, without a terminator (R164, R165). -/
abbrev Text := List Byte

end Sys2Proof
end

