-- ==== Sys2Proof/Syntax.lean ====
section
/-! DEFINITION. The events of DISP7, one constructor for each of the 19 rows of
spec/opcode_table.json (30_encoding.md R75, R80). A read carries no data field, because a bus read
ignores it (R77); a write carries its whole 16-bit data, also where the register ignores it. -/

namespace Sys2Proof

/-- One decoded event of the trace. -/
inductive Instr where
  /-- RD_CTRL, R130. -/
  | rdCtrl
  /-- WR_CTRL, R131. -/
  | wrCtrl (v : Word)
  /-- RD_STATUS, R132. -/
  | rdStatus
  /-- WR_STATUS, R133: ignored. -/
  | wrStatus (v : Word)
  /-- RD_STC, R134. -/
  | rdStc
  /-- WR_STC, R135. -/
  | wrStc (v : Word)
  /-- RD_DISP, R136. -/
  | rdDisp
  /-- WR_DISP, R137: ignored. -/
  | wrDisp (v : Word)
  /-- RD_GPROBE, R138. -/
  | rdGprobe
  /-- WR_GPROBE, R139. -/
  | wrGprobe (v : Word)
  /-- RD_BUF, R140. -/
  | rdBuf (i : CellIndex)
  /-- WR_BUF, R141. -/
  | wrBuf (i : CellIndex) (v : Word)
  /-- RD_BUFTERM, R142. -/
  | rdBufterm
  /-- WR_BUFTERM, R143: ignored. -/
  | wrBufterm (v : Word)
  /-- RD_RSVD, R144: the fallback row of a read. -/
  | rdRsvd (a : Addr)
  /-- WR_RSVD, R145: the fallback row of a write, ignored. -/
  | wrRsvd (a : Addr) (v : Word)
  /-- TICK, R101. -/
  | tick
  /-- RESET, R200. -/
  | reset
  /-- RSVD_EVENT, R80: the low bit of KIND (0 beside TICK, 1 beside RESET) and the payload. -/
  | rsvdEvent (k : BitVec 1) (p : Payload)
  deriving DecidableEq, Repr

/-- The rows of spec/opcode_table.json, by name. -/
inductive Row where
  | rdCtrl | wrCtrl | rdStatus | wrStatus | rdStc | wrStc | rdDisp | wrDisp | rdGprobe | wrGprobe
  | rdBuf | wrBuf | rdBufterm | wrBufterm | rdRsvd | wrRsvd | tick | reset | rsvdEvent
  deriving DecidableEq, Repr

end Sys2Proof
end

