-- ==== Sys2Proof/WellFormed.lean ====
section
/-! DEFINITION. Which events an op word can spell: the fallback rows hold exactly the words no
specific row matches (30_encoding.md R75, R76, R80; 42_bus_registers.md R144, R145). -/

namespace Sys2Proof

/-- The reserved addresses 0x05 to 0x1F and 0x41 to 0xFF (R32, R40). -/
def reservedAddr (a : Addr) : Bool :=
  (0x05#8 ≤ a && a ≤ 0x1F#8) || 0x41#8 ≤ a

/-- The fields of an event are ones its row can hold: a fallback bus row has a reserved address,
and RSVD_EVENT has a nonzero payload. Every other row takes every value of its fields. -/
def Instr.wellFormed : Instr → Bool
  | .rdCtrl => true
  | .wrCtrl _ => true
  | .rdStatus => true
  | .wrStatus _ => true
  | .rdStc => true
  | .wrStc _ => true
  | .rdDisp => true
  | .wrDisp _ => true
  | .rdGprobe => true
  | .wrGprobe _ => true
  | .rdBuf _ => true
  | .wrBuf _ _ => true
  | .rdBufterm => true
  | .wrBufterm _ => true
  | .rdRsvd a => reservedAddr a
  | .wrRsvd a _ => reservedAddr a
  | .tick => true
  | .reset => true
  | .rsvdEvent _ p => p != 0#24

end Sys2Proof
end

