-- ==== Sys2Proof/Decode.lean ====
section
/-! DEFINITION. The op word (30_encoding.md R70-R81): its fields, the decoder, the encoder, and the
opcode table as rows of mask and pattern. The decoder is total on the 26 bits (R76); a number that
is no 26-bit word spells no op word and is refused by `decodeTableWord`. -/

namespace Sys2Proof

/-! ### Fields (R70, R71) -/

/-- KIND, bits 25:24: 00 bus read, 01 bus write, 10 TICK, 11 RESET. -/
def OpWord.kind (w : OpWord) : BitVec 2 := w.extractLsb' 24 2

/-- A, bits 23:16: the register address. -/
def OpWord.addr (w : OpWord) : Addr := w.extractLsb' 16 8

/-- D, bits 15:0: the write data. -/
def OpWord.data (w : OpWord) : Word := w.extractLsb' 0 16

/-- Bits 23:0, all zero for TICK and RESET. -/
def OpWord.payload (w : OpWord) : Payload := w.extractLsb' 0 24

/-- The op word of a bus event, `{KIND, A, D}`. -/
def busWord (kind : BitVec 2) (a : Addr) (d : Word) : OpWord := kind ++ a ++ d

/-- The op word of a TICK or RESET, or of a reserved event beside one, `{KIND, payload}`. -/
def sidebandWord (kind : BitVec 2) (p : Payload) : OpWord := kind ++ p

/-- The address of buffer cell `i`, `0x20 + i` (R38, R71). -/
def bufAddr (i : CellIndex) : Addr := 0b001#3 ++ i

/-! ### The decoder (R75, R76, R80) -/

/-- The event a bus read of address `a` is (R75, the read column). -/
def decodeRead (a : Addr) : Instr :=
  if a = 0x00#8 then .rdCtrl
  else if a = 0x01#8 then .rdStatus
  else if a = 0x02#8 then .rdStc
  else if a = 0x03#8 then .rdDisp
  else if a = 0x04#8 then .rdGprobe
  else if a.extractLsb' 5 3 = 0b001#3 then .rdBuf (a.extractLsb' 0 5)
  else if a = 0x40#8 then .rdBufterm
  else .rdRsvd a

/-- The event a bus write of `v` to address `a` is (R75, the write column). -/
def decodeWrite (a : Addr) (v : Word) : Instr :=
  if a = 0x00#8 then .wrCtrl v
  else if a = 0x01#8 then .wrStatus v
  else if a = 0x02#8 then .wrStc v
  else if a = 0x03#8 then .wrDisp v
  else if a = 0x04#8 then .wrGprobe v
  else if a.extractLsb' 5 3 = 0b001#3 then .wrBuf (a.extractLsb' 0 5) v
  else if a = 0x40#8 then .wrBufterm v
  else .wrRsvd a v

/-- The event of a sideband word whose KIND has low bit `k` and whose bits 23:0 are `p` (R75, R80). -/
def decodeSideband (k : BitVec 1) (p : Payload) : Instr :=
  if p = 0#24 then (if k = 0#1 then .tick else .reset) else .rsvdEvent k p

/-- The event an op word spells; every 26-bit word spells exactly one row (R76). -/
def decode (w : OpWord) : Instr :=
  if OpWord.kind w = 0b00#2 then decodeRead (OpWord.addr w)
  else if OpWord.kind w = 0b01#2 then decodeWrite (OpWord.addr w) (OpWord.data w)
  else decodeSideband ((OpWord.kind w).extractLsb' 0 1) (OpWord.payload w)

/-! ### The encoder (R70; a read's ignored data field is written as 0, R77) -/

/-- The op word of a bus read. -/
def readWord (a : Addr) : OpWord := busWord 0b00#2 a 0#16

/-- The op word of a bus write. -/
def writeWord (a : Addr) (v : Word) : OpWord := busWord 0b01#2 a v

/-- The op word of an event. -/
def encode : Instr → OpWord
  | .rdCtrl => readWord 0x00#8
  | .wrCtrl v => writeWord 0x00#8 v
  | .rdStatus => readWord 0x01#8
  | .wrStatus v => writeWord 0x01#8 v
  | .rdStc => readWord 0x02#8
  | .wrStc v => writeWord 0x02#8 v
  | .rdDisp => readWord 0x03#8
  | .wrDisp v => writeWord 0x03#8 v
  | .rdGprobe => readWord 0x04#8
  | .wrGprobe v => writeWord 0x04#8 v
  | .rdBuf i => readWord (bufAddr i)
  | .wrBuf i v => writeWord (bufAddr i) v
  | .rdBufterm => readWord 0x40#8
  | .wrBufterm v => writeWord 0x40#8 v
  | .rdRsvd a => readWord a
  | .wrRsvd a v => writeWord a v
  | .tick => sidebandWord 0b10#2 0#24
  | .reset => sidebandWord 0b11#2 0#24
  | .rsvdEvent k p => sidebandWord (0b1#1 ++ k) p

/-! ### The table's numbering -/

/-- The op word a number spells; a number of more than 26 bits spells none (log 9, DESIGN CHOICE). -/
def opWordOfNat (w : Nat) : Option OpWord :=
  if w < 2 ^ 26 then some (BitVec.ofNat 26 w) else none

/-- The instruction the decoder reads from the `nbits`-bit number `w` of spec/opcode_table.json.
Every row is one 26-bit word (R70), so `nbits` picks nothing. -/
def decodeTableWord (_nbits w : Nat) : Option Instr :=
  (opWordOfNat w).map decode

/-! ### The opcode table as rows (R76) -/

/-- One row of spec/opcode_table.json: a word matches when `word &&& mask = pattern`. -/
structure OpRow where
  row      : Row
  mask     : OpWord
  pattern  : OpWord
  fallback : Bool
  deriving DecidableEq, Repr

/-- The table's rows, in the table's order. -/
def opTable : List OpRow := [
  ⟨.rdCtrl,    0x3FF0000#26, 0x0000000#26, false⟩,
  ⟨.wrCtrl,    0x3FF0000#26, 0x1000000#26, false⟩,
  ⟨.rdStatus,  0x3FF0000#26, 0x0010000#26, false⟩,
  ⟨.wrStatus,  0x3FF0000#26, 0x1010000#26, false⟩,
  ⟨.rdStc,     0x3FF0000#26, 0x0020000#26, false⟩,
  ⟨.wrStc,     0x3FF0000#26, 0x1020000#26, false⟩,
  ⟨.rdDisp,    0x3FF0000#26, 0x0030000#26, false⟩,
  ⟨.wrDisp,    0x3FF0000#26, 0x1030000#26, false⟩,
  ⟨.rdGprobe,  0x3FF0000#26, 0x0040000#26, false⟩,
  ⟨.wrGprobe,  0x3FF0000#26, 0x1040000#26, false⟩,
  ⟨.rdBuf,     0x3E00000#26, 0x0200000#26, false⟩,
  ⟨.wrBuf,     0x3E00000#26, 0x1200000#26, false⟩,
  ⟨.rdBufterm, 0x3FF0000#26, 0x0400000#26, false⟩,
  ⟨.wrBufterm, 0x3FF0000#26, 0x1400000#26, false⟩,
  ⟨.rdRsvd,    0x3000000#26, 0x0000000#26, true⟩,
  ⟨.wrRsvd,    0x3000000#26, 0x1000000#26, true⟩,
  ⟨.tick,      0x3FFFFFF#26, 0x2000000#26, false⟩,
  ⟨.reset,     0x3FFFFFF#26, 0x3000000#26, false⟩,
  ⟨.rsvdEvent, 0x2000000#26, 0x2000000#26, true⟩]

/-- The word has the row's fixed bits. -/
def OpRow.matchesWord (r : OpRow) (w : OpWord) : Bool := w &&& r.mask == r.pattern

/-- The row an event belongs to. -/
def Instr.row : Instr → Row
  | .rdCtrl => .rdCtrl
  | .wrCtrl _ => .wrCtrl
  | .rdStatus => .rdStatus
  | .wrStatus _ => .wrStatus
  | .rdStc => .rdStc
  | .wrStc _ => .wrStc
  | .rdDisp => .rdDisp
  | .wrDisp _ => .wrDisp
  | .rdGprobe => .rdGprobe
  | .wrGprobe _ => .wrGprobe
  | .rdBuf _ => .rdBuf
  | .wrBuf _ _ => .wrBuf
  | .rdBufterm => .rdBufterm
  | .wrBufterm _ => .wrBufterm
  | .rdRsvd _ => .rdRsvd
  | .wrRsvd _ _ => .wrRsvd
  | .tick => .tick
  | .reset => .reset
  | .rsvdEvent _ _ => .rsvdEvent

/-- The event is a bus read, whose data field the decoder ignores (R77). -/
def Instr.isRead : Instr → Bool
  | .rdCtrl | .rdStatus | .rdStc | .rdDisp | .rdGprobe | .rdBuf _ | .rdBufterm | .rdRsvd _ => true
  | .wrCtrl _ | .wrStatus _ | .wrStc _ | .wrDisp _ | .wrGprobe _ | .wrBuf _ _ | .wrBufterm _
  | .wrRsvd _ _ | .tick | .reset | .rsvdEvent _ _ => false

/-- The event is a bus write. -/
def Instr.isWrite : Instr → Bool
  | .wrCtrl _ | .wrStatus _ | .wrStc _ | .wrDisp _ | .wrGprobe _ | .wrBuf _ _ | .wrBufterm _
  | .wrRsvd _ _ => true
  | .rdCtrl | .rdStatus | .rdStc | .rdDisp | .rdGprobe | .rdBuf _ | .rdBufterm | .rdRsvd _
  | .tick | .reset | .rsvdEvent _ _ => false

/-- The word spells no event (R80). -/
def Instr.isRsvdEvent : Instr → Bool
  | .rsvdEvent _ _ => true
  | .rdCtrl | .rdStatus | .rdStc | .rdDisp | .rdGprobe | .rdBuf _ | .rdBufterm | .rdRsvd _
  | .wrCtrl _ | .wrStatus _ | .wrStc _ | .wrDisp _ | .wrGprobe _ | .wrBuf _ _ | .wrBufterm _
  | .wrRsvd _ _ | .tick | .reset => false

end Sys2Proof
end

