-- ==== Sys2Proof/Machine/State.lean ====
section
/-! DEFINITION. The state of DISP7 (10_state.md R20-R30), as plain data, and its value after RESET
(R41). Two kinds of field stand beside the spec's elements: the outputs a cycle leaves (`writes`,
`rdata`) and the inputs the outside world has yet to present (`trace`). -/

namespace Sys2Proof.Machine

/-- Why the machine stops with a fault. DISP7 has none: "DISP7 raises no synchronous exception"
(60_exceptions.md R180, R182), so nothing raises one and the type has no member. Safe: nothing is
claimed of a fault. -/
inductive Fault where
  deriving DecidableEq, Repr

/-- Why an op word is given no meaning. -/
inductive Refusal where
  /-- Raised by exec's arm of an instruction that has no meaning yet, and by nothing else. Safe. -/
  | notModelled (mnemonic : String)
  /-- Raised by RSVD_EVENT: KIND = 10 or 11 with a nonzero payload spells no event, and the spec
  refuses it under this name (30_encoding.md R80). Safe: it errs toward unprovable, as R80 says. -/
  | reservedEventPayload
  deriving DecidableEq, Repr

/-- A write to the display (00_scope.md R11, 41_render_tick.md R103, R106). -/
inductive DisplayWrite where
  /-- Put a glyph code on the segment outputs. -/
  | setSegments (g : Byte)
  /-- Energize one digit position and no other. -/
  | selectDigit (d : BitVec 3)
  deriving DecidableEq, Repr

/-- The pin sequencer's phase PH (10_state.md R30, 70_reset_and_hazards.md R214). -/
inductive Phase where
  | idle
  | p1
  | p2
  deriving DecidableEq, Repr

/-- A host access as the ports carry it (20_memory.md R50); `wdata` is ignored on a read. -/
structure BusAccess where
  we    : Bool
  addr  : Addr
  wdata : Word
  deriving DecidableEq, Repr

/-- What the outside presents in one clock cycle: at most one RESET, one TICK and one bus access
(20_memory.md R57). All three absent is an idle cycle (30_encoding.md R82). RESET and TICK come with
the 24 bits an op word has for them: hardware presents 0 only, and any other value is the reserved
event of R80 (log 2, DESIGN CHOICE). -/
structure Cycle where
  rst  : Option Payload
  tick : Option Payload
  bus  : Option BusAccess
  deriving DecidableEq, Repr

/-- The Render Buffer's writable cells: (index, character) pairs, indices strictly rising, no cell
listed that holds 0x00, the value an unlisted cell reads as (R41, log 3, DEDUCED). -/
abbrev Memory := List Host.Cell

/-- The machine's state. -/
structure State where
  /-- BUF[0..31] (R21). BUF[32] is a constant and has no storage (R22). -/
  buf    : Memory
  /-- CC, the Character Cursor (R23). -/
  cc     : BitVec 5
  /-- DC, the Digit Cursor (R24). -/
  dc     : BitVec 3
  /-- STC, the Sample Tick Counter (R25). -/
  stc    : Word
  /-- EN, the render enable (R26). -/
  en     : Bool
  /-- SEG_OUT (R27). -/
  segOut : Byte
  /-- DIG_OUT (R28). -/
  digOut : Byte
  /-- GP, the glyph probe (R29). -/
  gp     : Byte
  /-- PH, the pin sequencer's phase (R30). -/
  ph     : Phase
  /-- seg_pin (R30). -/
  segPin : Byte
  /-- dig_pin (R30). -/
  digPin : Byte
  /-- W, the display writes of the cycle's TICK (R101); empty where none executed (log 5, DESIGN
  CHOICE). -/
  writes : List DisplayWrite
  /-- The result of the cycle's bus read, on bus_rdata with bus_rvalid = 1 in the next cycle; `none`
  is bus_rvalid = 0 (20_memory.md R50, R58, log 4, DEDUCED). -/
  rdata  : Option Word
  /-- The cycles the outside has yet to present, the next one first (log 1, DESIGN CHOICE). -/
  trace  : List Cycle
  deriving DecidableEq, Repr

/-- The state after RESET (R41, 70_reset_and_hazards.md R200), with no read data, no display write
and no cycle waiting. A run starts here (R42; log 6, DEDUCED). -/
def State.reset : State where
  buf    := []
  cc     := 0#5
  dc     := 0#3
  stc    := 0x0000#16
  en     := false
  segOut := 0x00#8
  digOut := 0x00#8
  gp     := 0x00#8
  ph     := .idle
  segPin := 0x00#8
  digPin := 0x00#8
  writes := []
  rdata  := none
  trace  := []

end Sys2Proof.Machine
end

