-- ==== Sys2Proof/Machine/Ops.lean ====
section
/-! DEFINITION. The named operations over the Render Buffer and the registers. Every meaning reads
and writes the state through these. DISP7 has no exceptions (60_exceptions.md R180, R187, R188): there
is no entry that saves anything and no return that restores anything, so no such operation is here. -/

namespace Sys2Proof.Machine

/-! ### The Render Buffer as memory (10_state.md R20-R22; log 3, DEDUCED) -/

/-- What a cell nothing has written reads as: the reset contents (R41), the terminator code (R73). -/
def blankCell : Byte := 0x00#8

/-- The byte at an index. -/
def Memory.read (m : Memory) (a : Nat) : Byte :=
  match m with
  | [] => blankCell
  | (k, b) :: rest => if a = k then b else Memory.read rest a

/-- Put `(a, v)` in its place in a rising list, or take the entry out where `v` is what an unlisted
cell reads as. -/
def Memory.write (m : Memory) (a : Nat) (v : Byte) : Memory :=
  match m with
  | [] => if v = blankCell then [] else [(a, v)]
  | (k, b) :: rest =>
    if a < k then (if v = blankCell then (k, b) :: rest else (a, v) :: (k, b) :: rest)
    else if a = k then (if v = blankCell then rest else (a, v) :: rest)
    else (k, b) :: Memory.write rest a v

/-- The indices rise strictly from at least `lo`, stay below 32 (the writable cells, R21), and no
listed cell holds the blank value. -/
def Memory.wfFrom (lo : Nat) (m : Memory) : Bool :=
  match m with
  | [] => true
  | (k, b) :: rest => lo ≤ k && k < 32 && b != blankCell && Memory.wfFrom (k + 1) rest

/-- The canonical form. -/
def Memory.wf (m : Memory) : Bool := Memory.wfFrom 0 m

/-- BUF[i] for a cell index 0..32: the writable cells are stored, and every other index, BUF[32]
alone in practice (R110), is the hardwired terminator 0x00 (R22). -/
def State.cell (s : State) (i : Nat) : Byte :=
  if i < 32 then Memory.read s.buf i else 0x00#8

/-- `BUF[i] <- c`, for a writable cell (R141). -/
def State.writeCell (i : CellIndex) (c : Byte) (s : State) : State :=
  { s with buf := Memory.write s.buf i.toNat c }

/-- `for i in 0..31: BUF[i] <- 0x00`, CTRL's action CLR (R33, R131). -/
def State.clearBuffer (s : State) : State :=
  { s with buf := [] }

/-! ### Registers -/

/-- `CC <- 0; DC <- 0`, CTRL's action CRST (R33, R131). -/
def State.resetCursors (s : State) : State :=
  { s with cc := 0#5, dc := 0#3 }

/-- `EN <- b` (R26). -/
def State.setEn (b : Bool) (s : State) : State :=
  { s with en := b }

/-- `STC <- v` (R35). -/
def State.setStc (v : Word) (s : State) : State :=
  { s with stc := v }

/-- `GP <- c` (R37). -/
def State.setGp (c : Byte) (s : State) : State :=
  { s with gp := c }

/-- `CC <- c; DC <- d`, as a tick moves the cursors (R107). -/
def State.setCursors (c : BitVec 5) (d : BitVec 3) (s : State) : State :=
  { s with cc := c, dc := d }

/-- `SEG_OUT <- g; DIG_OUT <- o`, the values a tick leaves at the display (R109). -/
def State.setOutputs (g o : Byte) (s : State) : State :=
  { s with segOut := g, digOut := o }

/-- The ordered list W a TICK emits (R101). -/
def State.emit (w : List DisplayWrite) (s : State) : State :=
  { s with writes := w }

/-- `return v` of a bus read: the value goes to the bus in the next cycle, and no state a rule reads
changes (20_memory.md R56, R58). -/
def State.returnData (v : Word) (s : State) : State :=
  { s with rdata := some v }

/-- `PH <- p; seg_pin <- g; dig_pin <- o` (70_reset_and_hazards.md R214). -/
def State.setPins (p : Phase) (g o : Byte) (s : State) : State :=
  { s with ph := p, segPin := g, digPin := o }

/-- Every element at its reset value; what the outside has yet to present is not DISP7's and stays
(R41, R200). -/
def State.resetAll (s : State) : State :=
  { State.reset with trace := s.trace }

/-- A clock cycle begins: its inputs leave the trace, no TICK has emitted anything, and no read has
been presented (20_memory.md R58, 41_render_tick.md R101). -/
def State.beginCycle (rest : List Cycle) (s : State) : State :=
  { s with trace := rest, writes := [], rdata := none }

end Sys2Proof.Machine
end

