-- ==== Sys2Proof/Machine/Flags.lean ====
section
/-! DEFINITION. The control and status bits. DISP7 has no flags or condition codes and no operation
sets one (10_state.md R31); the bits of CTRL and STATUS (R33, R34) are all there is, and they stand
here. -/

namespace Sys2Proof.Machine

/-- CTRL bit 0 of a written value: EN (R33). -/
def ctrlEn (v : Word) : Bool := v.getLsbD 0

/-- CTRL bit 1 of a written value: the action CRST (R33). -/
def ctrlCrst (v : Word) : Bool := v.getLsbD 1

/-- CTRL bit 2 of a written value: the action CLR (R33). -/
def ctrlClr (v : Word) : Bool := v.getLsbD 2

/-- What CTRL reads as: EN in bit 0, the action bits and the reserved bits 0 (R33, R130). -/
def State.ctrlWord (s : State) : Word := (BitVec.ofBool s.en).setWidth 16

/-- What STATUS reads as: `{7'b0, EN, DC[2:0], CC[4:0]}` (R34, R132). -/
def State.statusWord (s : State) : Word := 0#7 ++ BitVec.ofBool s.en ++ s.dc ++ s.cc

/-- A CTRL write, one atomic event: `EN <- v[0]`; CRST resets both cursors; CLR clears the buffer;
v[15:3] is ignored (R33, R62, R131). -/
def State.writeCtrl (v : Word) (s : State) : State :=
  let s := s.setEn (ctrlEn v)
  let s := if ctrlCrst v then s.resetCursors else s
  if ctrlClr v then s.clearBuffer else s

end Sys2Proof.Machine
end

