-- ==== Sys2Proof/Machine/Glyph.lean ====
section
/-! DEFINITION. The glyph encoder (40_glyph_encoder.md R90-R96): a constant function with no state
(R96). The table is the spec's own choice (R91), UNVERIFIED as the repository's (log 7), so it is one
value of a type of tables, and `GlyphTable.ok` says which tables R95 admits. -/

namespace Sys2Proof.Machine

/-- `'-'` (30_encoding.md R72). -/
def charMinus : Byte := 0x2D#8

/-- `'.'` (R72). -/
def charDot : Byte := 0x2E#8

/-- `'0'` (R72). -/
def charZero : Byte := 0x30#8

/-- `'9'` (R72). -/
def charNine : Byte := 0x39#8

/-- The terminator (R73). -/
def charTerminator : Byte := 0x00#8

/-- A glyph table: the codes of `'0'`..`'9'`, the code of `'-'`, and the decimal-point mask. -/
structure GlyphTable where
  digits : Vector Byte 10
  minus  : Byte
  dpMask : Byte
  deriving DecidableEq, Repr

/-- The glyph table of DISP7 and DP_MASK = 0x80 (R91, R93). -/
def disp7Glyphs : GlyphTable where
  digits := #v[0x3F#8, 0x06#8, 0x5B#8, 0x4F#8, 0x66#8, 0x6D#8, 0x7D#8, 0x07#8, 0x7F#8, 0x6F#8]
  minus  := 0x40#8
  dpMask := 0x80#8

/-- `glyph_for` with a given table (R90): digits and `'-'` from the table, every other code blank. -/
def GlyphTable.glyph (t : GlyphTable) (c : Byte) : Byte :=
  if charZero ≤ c ∧ c ≤ charNine then t.digits.toList.getD (c.toNat - charZero.toNat) 0x00#8
  else if c = charMinus then t.minus
  else 0x00#8

/-- What R95 asks of any table beyond what `GlyphTable.glyph` gives by itself: DP_MASK has exactly
one bit set, and `'8'` with its dot lights every segment. -/
def GlyphTable.ok (t : GlyphTable) : Bool :=
  t.dpMask != 0#8 && t.dpMask &&& (t.dpMask - 1#8) == 0#8 &&
    (t.digits[8] ||| t.dpMask) == 0xFF#8

/-- `glyph_for(c)` of DISP7 (R90). -/
def glyphFor (c : Byte) : Byte := disp7Glyphs.glyph c

/-- DP_MASK (R93). -/
def dpMask : Byte := disp7Glyphs.dpMask

end Sys2Proof.Machine
end

