-- ==== Sys2Proof/Machine/Operands.lean ====
section
/-! DEFINITION. The operand forms: which bits of the bus data a narrow register takes, and what each
register reads as (10_state.md R35-R40, 20_memory.md R52). Every access moves a whole 16-bit
register; a narrow one reads zero-extended and ignores the high bits of a write. -/

namespace Sys2Proof.Machine

/-- The 8 bits a BUFn or GPROBE write stores, `v[7:0]` (R37, R38). -/
def lowByte (v : Word) : Byte := v.extractLsb' 0 8

/-- `{hi, lo}` of two 8-bit values (R10). -/
def pairWord (hi lo : Byte) : Word := hi ++ lo

/-- What a reserved address, and BUFTERM, read as (R39, R40). -/
def zeroWord : Word := 0x0000#16

/-- What DISP reads as: `{DIG_OUT, SEG_OUT}` (R36, R136). -/
def State.dispWord (s : State) : Word := pairWord s.digOut s.segOut

/-- What GPROBE reads as: `{glyph_for(GP), GP}` (R37, R138). -/
def State.gprobeWord (s : State) : Word := pairWord (glyphFor s.gp) s.gp

/-- What BUFi reads as: the cell, zero-extended (R38, R140). -/
def State.bufWord (i : CellIndex) (s : State) : Word := (s.cell i.toNat).setWidth 16

/-- What BUFTERM reads as: BUF[32], always 0x0000 (R39, R142). -/
def State.buftermWord (s : State) : Word := (s.cell 32).setWidth 16

end Sys2Proof.Machine
end

