-- ==== Sys2Proof/Machine/BusRead.lean ====
section
/-! DEFINITION. The bus reads (42_bus_registers.md R130-R144). Each returns the register's value and
changes nothing a rule reads (20_memory.md R56). -/

namespace Sys2Proof.Machine

/-- RD_CTRL (R130). -/
def execRdCtrl (s : State) : Host.Outcome State Fault Refusal :=
  .next (s.returnData s.ctrlWord)

/-- RD_STATUS (R132). -/
def execRdStatus (s : State) : Host.Outcome State Fault Refusal :=
  .next (s.returnData s.statusWord)

/-- RD_STC (R134). -/
def execRdStc (s : State) : Host.Outcome State Fault Refusal :=
  .next (s.returnData s.stc)

/-- RD_DISP (R136). -/
def execRdDisp (s : State) : Host.Outcome State Fault Refusal :=
  .next (s.returnData s.dispWord)

/-- RD_GPROBE (R138). -/
def execRdGprobe (s : State) : Host.Outcome State Fault Refusal :=
  .next (s.returnData s.gprobeWord)

/-- RD_BUF (R140). -/
def execRdBuf (i : CellIndex) (s : State) : Host.Outcome State Fault Refusal :=
  .next (s.returnData (s.bufWord i))

/-- RD_BUFTERM (R142). -/
def execRdBufterm (s : State) : Host.Outcome State Fault Refusal :=
  .next (s.returnData s.buftermWord)

/-- RD_RSVD (R144): 0x0000 at every reserved address, with no error. -/
def execRdRsvd (_a : Addr) (s : State) : Host.Outcome State Fault Refusal :=
  .next (s.returnData zeroWord)

end Sys2Proof.Machine
end

