-- ==== Sys2Proof/Machine/BusWrite.lean ====
section
/-! DEFINITION. The bus writes (42_bus_registers.md R131-R145). A write to a read-only register or a
reserved address is ignored with no error (30_encoding.md R78). Every write is accepted whatever EN
is (20_memory.md R66). -/

namespace Sys2Proof.Machine

/-- WR_CTRL (R131). -/
def execWrCtrl (v : Word) (s : State) : Host.Outcome State Fault Refusal :=
  .next (s.writeCtrl v)

/-- WR_STATUS (R133): no state changes. -/
def execWrStatus (_v : Word) (s : State) : Host.Outcome State Fault Refusal :=
  .next s

/-- WR_STC (R135). -/
def execWrStc (v : Word) (s : State) : Host.Outcome State Fault Refusal :=
  .next (s.setStc v)

/-- WR_DISP (R137): no state changes. -/
def execWrDisp (_v : Word) (s : State) : Host.Outcome State Fault Refusal :=
  .next s

/-- WR_GPROBE (R139): `GP <- v[7:0]`. -/
def execWrGprobe (v : Word) (s : State) : Host.Outcome State Fault Refusal :=
  .next (s.setGp (lowByte v))

/-- WR_BUF (R141): `BUF[i] <- v[7:0]`. -/
def execWrBuf (i : CellIndex) (v : Word) (s : State) : Host.Outcome State Fault Refusal :=
  .next (s.writeCell i (lowByte v))

/-- WR_BUFTERM (R143): no state changes, the capacity terminator cannot be removed. -/
def execWrBufterm (_v : Word) (s : State) : Host.Outcome State Fault Refusal :=
  .next s

/-- WR_RSVD (R145): no state changes. -/
def execWrRsvd (_a : Addr) (_v : Word) (s : State) : Host.Outcome State Fault Refusal :=
  .next s

end Sys2Proof.Machine
end

