-- ==== Sys2Proof/Machine/Sideband.lean ====
section
/-! DEFINITION. RESET (70_reset_and_hazards.md R200) and the reserved event (30_encoding.md R80). -/

namespace Sys2Proof.Machine

/-- RESET (R200): every element takes its reset value, the pin sequencer's included. -/
def execReset (s : State) : Host.Outcome State Fault Refusal :=
  .next s.resetAll

/-- RSVD_EVENT (R80): the word spells no event and is refused; it reads neither as a TICK nor as a
RESET. -/
def execRsvdEvent (_k : BitVec 1) (_p : Payload) (_s : State) : Host.Outcome State Fault Refusal :=
  .refused .reservedEventPayload

end Sys2Proof.Machine
end

