-- ==== Sys2Proof/Machine/Tick.lean ====
section
/-! DEFINITION. The render tick (41_render_tick.md R100-R109): the seven steps, each a function of the
state as it was before the tick (00_scope.md R12). -/

namespace Sys2Proof.Machine

/-- Step 1: the current character, `BUF[CC]` (R102). -/
def State.currentChar (s : State) : Byte := s.cell s.cc.toNat

/-- The lookahead `nx = BUF[CC + 1]`, a 6-bit index 1..32 (R105); step 6 reads the same cell (R107). -/
def State.nextChar (s : State) : Byte := s.cell (s.cc.toNat + 1)

/-- The next character is the decimal point, which folds into this tick's glyph (R105). -/
def State.foldsDot (s : State) : Bool := s.nextChar == charDot

/-- The next character is the terminator, which restarts the display cycle (R107). -/
def State.endsText (s : State) : Bool := s.nextChar == charTerminator

/-- Steps 3 and 4: the glyph this tick shows, with DP_MASK where the dot folds (R104, R105). -/
def State.tickGlyph (s : State) : Byte :=
  if s.foldsDot then glyphFor s.currentChar ||| dpMask else glyphFor s.currentChar

/-- The digit this tick energizes, one-hot: DC as it was before the tick (R103, R109). -/
def State.tickDigit (s : State) : Byte := 1#8 <<< s.dc.toNat

/-- Step 4: DC after the lookahead, held where the dot folds, else advanced modulo 8 (R105). -/
def State.advancedDc (s : State) : BitVec 3 :=
  if s.foldsDot then s.dc else s.dc + 1#3

/-- Step 6: CC after the tick. `CC + 1` is in 1..32; at 32 the next cell is the hardwired terminator
and CC becomes 0 (R107, R110). -/
def State.nextCc (s : State) : BitVec 5 :=
  if s.endsText then 0#5 else s.cc + 1#5

/-- Step 6: DC after the tick; the reset overrides step 4 (R107). -/
def State.nextDc (s : State) : BitVec 3 :=
  if s.endsText then 0#3 else s.advancedDc

/-- The ordered write list of an executed tick: blank, then select the digit, then the glyph
(R101, R103, R106). -/
def State.tickWrites (s : State) : List DisplayWrite :=
  [.setSegments 0x00#8, .selectDigit s.dc, .setSegments s.tickGlyph]

/-- An executed tick: all seven steps take effect together (R101, R12, 60_exceptions.md R187). -/
def State.renderTick (s : State) : State :=
  (((s.setCursors s.nextCc s.nextDc).setStc (s.stc + 1#16)).setOutputs s.tickGlyph
    s.tickDigit).emit s.tickWrites

/-- A dropped tick, EN = 0: nothing changes and nothing is emitted, `W = []` (R100, R101). -/
def State.dropTick (s : State) : State := s.emit []

/-- TICK (R100, R101). -/
def execTick (s : State) : Host.Outcome State Fault Refusal :=
  .next (if s.en then s.renderTick else s.dropTick)

end Sys2Proof.Machine
end

