-- ==== Sys2Proof/Machine/Dispatch.lean ====
section
/-! DEFINITION. The dispatch: one arm for each row of spec/opcode_table.json. -/

namespace Sys2Proof.Machine
open Sys2Proof

/-- The meaning of one event, applied to the state at its place in the order of events (R59). -/
def exec (i : Instr) (s : State) : Host.Outcome State Fault Refusal :=
  match i with
  | .rdCtrl => Sys2Proof.Machine.execRdCtrl s
  | .wrCtrl v => Sys2Proof.Machine.execWrCtrl v s
  | .rdStatus => Sys2Proof.Machine.execRdStatus s
  | .wrStatus v => Sys2Proof.Machine.execWrStatus v s
  | .rdStc => Sys2Proof.Machine.execRdStc s
  | .wrStc v => Sys2Proof.Machine.execWrStc v s
  | .rdDisp => Sys2Proof.Machine.execRdDisp s
  | .wrDisp v => Sys2Proof.Machine.execWrDisp v s
  | .rdGprobe => Sys2Proof.Machine.execRdGprobe s
  | .wrGprobe v => Sys2Proof.Machine.execWrGprobe v s
  | .rdBuf n => Sys2Proof.Machine.execRdBuf n s
  | .wrBuf n v => Sys2Proof.Machine.execWrBuf n v s
  | .rdBufterm => Sys2Proof.Machine.execRdBufterm s
  | .wrBufterm v => Sys2Proof.Machine.execWrBufterm v s
  | .rdRsvd a => Sys2Proof.Machine.execRdRsvd a s
  | .wrRsvd a v => Sys2Proof.Machine.execWrRsvd a v s
  | .tick => Sys2Proof.Machine.execTick s
  | .reset => Sys2Proof.Machine.execReset s
  | .rsvdEvent k p => Sys2Proof.Machine.execRsvdEvent k p s

end Sys2Proof.Machine
end

