-- ==== Sys2Proof/Config.lean ====
section
/-! DEFINITION. What the spec leaves OPEN (00_scope.md R9; 92_eei_decisions.md D13, D24, D25, D26):
parameters a model takes as arguments. None of them changes any architectural state, so no field of
State and no meaning mentions them; the pin outputs, the host sequences and the timing formulas take
them. There is no free value in this model: the spec leaves no value open after an event. -/

namespace Sys2Proof

/-- Pin polarity and wiring (R9, D13). `segMap k` is the glyph bit on physical segment pin `k`, and
`digitMap k` the digit index on physical digit position `k` (log 10, DESIGN CHOICE). -/
structure PinParams where
  segActiveLow : Bool
  digActiveLow : Bool
  segMap       : Fin 8 → Fin 8
  digitMap     : Fin 8 → Fin 8

/-- Every glyph bit and every digit index reaches exactly one pin. -/
def PinParams.ok (p : PinParams) : Prop :=
  Function.Injective p.segMap ∧ Function.Injective p.digitMap

/-- The wiring that keeps the bit order, with active-high pins (95_test_vectors.md 2.7). -/
def PinParams.straight : PinParams := ⟨false, false, id, id⟩

/-- Block clock and tick rate (R9, D26, 70_reset_and_hazards.md R219). The spec gives neither the kind of
number nor the unit; the model takes rationals, in events per second (log 15, DESIGN CHOICE). -/
structure ClockParams where
  fClk  : Rat
  fTick : Rat
  deriving DecidableEq, Repr

/-- `MIN_TICK_GAP`, in clock cycles (R8, R215). -/
def minTickGap : Nat := 3

/-- `F_TICK ≤ F_CLK / MIN_TICK_GAP`, for a full pin sequence each tick (R215, D26), and a rate above 0
(log 15, DESIGN CHOICE). -/
def ClockParams.ok (c : ClockParams) : Bool :=
  0 < c.fTick && c.fTick * minTickGap ≤ c.fClk

/-- The host's parameters (R9, R170, D24, D25): the refresh threshold, the counter value after a
failed sample, the number format, the text of a failure with code 0, and what stands before the digits
of a positive code: for the last two the spec allows any value (R171, 93_implementation_defined.md).
Readings are rationals (log 11, DESIGN CHOICE). -/
structure HostParams where
  refreshThreshold : Word
  retryPreset      : Word
  fmt              : Rat → Text
  codeZeroText     : Text
  positiveSign     : Text

/-- The constraints the spec puts on the host's parameters (D24, D25, R170, R172). -/
def HostParams.ok (p : HostParams) : Prop :=
  0#16 < p.retryPreset ∧ p.retryPreset < p.refreshThreshold ∧
  (∀ x, (p.fmt x).length = 5) ∧
  p.fmt (47 / 2) = [0x32#8, 0x33#8, 0x2E#8, 0x35#8, 0x30#8] ∧
  p.fmt 61 = [0x36#8, 0x31#8, 0x2E#8, 0x30#8, 0x30#8]

end Sys2Proof
end

