-- ==== Sys2Proof/Machine/Pins.lean ====
section
/-! DEFINITION. The pin sequencer and the output ports (70_reset_and_hazards.md R214, 20_memory.md
R50). The sequencer applies a tick's three display writes on three successive clock edges. -/

namespace Sys2Proof.Machine

/-- The pin sequencer at the rising edge that ends a cycle, after the cycle's events (R214). A TICK
executed this cycle exactly where W is not empty (R101; log 8, DEDUCED). RESET needs no case of its
own: its event has already put PH at IDLE and both pins at 0x00 (R200), which the edge keeps. -/
def State.clockEdge (s : State) : State :=
  if s.writes ≠ [] then s.setPins .p1 0x00#8 s.digPin
  else match s.ph with
    | .p1 => s.setPins .p2 s.segPin s.digOut
    | .p2 => s.setPins .idle s.segOut s.digPin
    | .idle => s

/-- XOR with the polarity: all bits inverted where the pins are active low (R50, R214). -/
def polarize (activeLow : Bool) (x : Byte) : Byte :=
  x ^^^ (if activeLow then 0xFF#8 else 0x00#8)

/-- Bit `k` of the port is the value's bit `m k`, for the physical pins 7 to 0 (R50, log 10, DESIGN CHOICE). -/
def routeBits (m : Fin 8 → Fin 8) (x : Byte) : Byte :=
  BitVec.ofBool (x.getLsbD (m 7)) ++ BitVec.ofBool (x.getLsbD (m 6)) ++
    BitVec.ofBool (x.getLsbD (m 5)) ++ BitVec.ofBool (x.getLsbD (m 4)) ++
    BitVec.ofBool (x.getLsbD (m 3)) ++ BitVec.ofBool (x.getLsbD (m 2)) ++
    BitVec.ofBool (x.getLsbD (m 1)) ++ BitVec.ofBool (x.getLsbD (m 0))

/-- `seg_o`, bit `k` at physical segment pin `k` (R50). -/
def State.segO (p : PinParams) (s : State) : Byte :=
  routeBits p.segMap (polarize p.segActiveLow s.segPin)

/-- `dig_o`, bit `k` at physical digit position `k` (R50). -/
def State.digO (p : PinParams) (s : State) : Byte :=
  routeBits p.digitMap (polarize p.digActiveLow s.digPin)

/-- `bus_rvalid`, in the cycle that begins in this state (R50, R58). -/
def State.busRvalid (s : State) : Bool := s.rdata.isSome

/-- `bus_rdata`, in the cycle that begins in this state; the port carries no data while
`bus_rvalid = 0` (R50, R58, log 4, DEDUCED). -/
def State.busRdata (s : State) : Option Word := s.rdata

end Sys2Proof.Machine
end

