-- ==== Sys2Proof/Machine/Cycle.lean ====
section
/-! DEFINITION. One clock cycle (20_memory.md R57-R61): the op words of what the ports present, the
order their events take effect in, and the edge that ends the cycle. -/

namespace Sys2Proof.Machine

/-- The op word of a bus access (30_encoding.md R70). -/
def BusAccess.word (b : BusAccess) : OpWord :=
  busWord (if b.we then 0b01#2 else 0b00#2) b.addr b.wdata

/-- The op words of a cycle, in the order RESET, TICK, bus (R57). -/
def Cycle.words (c : Cycle) : List OpWord :=
  (c.rst.map (sidebandWord 0b11#2)).toList ++ (c.tick.map (sidebandWord 0b10#2)).toList ++
    (c.bus.map BusAccess.word).toList

/-- The cycle that presents the one event of an op word. -/
def Cycle.ofWord (w : OpWord) : Cycle :=
  if OpWord.kind w = 0b11#2 then ⟨some (OpWord.payload w), none, none⟩
  else if OpWord.kind w = 0b10#2 then ⟨none, some (OpWord.payload w), none⟩
  else ⟨none, none, some ⟨OpWord.kind w == 0b01#2, OpWord.addr w, OpWord.data w⟩⟩

/-- The cycle that presents one event. -/
def Cycle.ofInstr (i : Instr) : Cycle := Cycle.ofWord (encode i)

/-- The cycle the ports present: `rst`, `tick_i`, and the access where `bus_valid = 1` (R50, R61). -/
def Cycle.ofPorts (rst tick : Bool) (bus : Option BusAccess) : Cycle :=
  ⟨if rst then some 0#24 else none, if tick then some 0#24 else none, bus⟩

/-- A cycle with no event (30_encoding.md R82). -/
def Cycle.idle : Cycle := ⟨none, none, none⟩

/-- The events that take effect, out of those presented in the order RESET, TICK, bus. A reserved
event leaves the cycle without a meaning (30_encoding.md R80, log 2, DESIGN CHOICE); a RESET discards everything
else; otherwise the TICK comes before the bus access (R57, 60_exceptions.md R186). -/
def effective (is : List Instr) : List Instr :=
  match is.find? Instr.isRsvdEvent with
  | some i => [i]
  | none => if Instr.reset ∈ is then [.reset] else is

/-- The events of a cycle, in the order they take effect (R57). -/
def Cycle.events (c : Cycle) : List Instr := effective (c.words.map decode)

/-- Apply events in order, each to the state the one before it left (R59). -/
def execAll (is : List Instr) (s : State) : Host.Outcome State Fault Refusal :=
  match is with
  | [] => .next s
  | i :: rest =>
    match exec i s with
    | .next t => execAll rest t
    | .fault r => .fault r
    | .refused r => .refused r

/-- The end of a cycle: the pin sequencer's edge, where the events had a meaning. -/
def endCycle (o : Host.Outcome State Fault Refusal) : Host.Outcome State Fault Refusal :=
  match o with
  | .next t => .next t.clockEdge
  | .fault r => .fault r
  | .refused r => .refused r

/-- One clock cycle with the inputs `c`, before the cycles `rest`. -/
def runCycle (c : Cycle) (rest : List Cycle) (s : State) : Host.Outcome State Fault Refusal :=
  endCycle (execAll c.events (s.beginCycle rest))

/-- One clock cycle: the next one of the trace, or an idle one where the outside presents nothing
more, since the clock does not stop (45_host_sequences.md R176, 60_exceptions.md R195). -/
def nextCycle (s : State) : Host.Outcome State Fault Refusal :=
  match s.trace with
  | [] => runCycle Cycle.idle [] s
  | c :: rest => runCycle c rest s

/-- Put the cycle of an op word in front of the trace; a number that is no op word presents nothing
(log 9, DESIGN CHOICE). -/
def State.presentWord (s : State) (w : Nat) : State :=
  match opWordOfNat w with
  | some x => { s with trace := Cycle.ofWord x :: s.trace }
  | none => s

end Sys2Proof.Machine
end

