-- ==== Sys2Proof/Machine/Step.lean ====
section
/-! DEFINITION. The step of the machine is one clock cycle (00_scope.md R15, 20_memory.md R59). -/

namespace Sys2Proof.Machine

/-- One step: one clock cycle of DISP7, with its events and its rising edge. -/
def step (s : State) : Host.Outcome State Fault Refusal := nextCycle s

/-- `s` with the instruction of the 26-bit number `w` as the next event the outside presents, in a
cycle of its own. DISP7 fetches no program (10_state.md R23, 20_memory.md R63): the trace is what the
outside presents, so this stands for the outside presenting one event more (log 1, DESIGN CHOICE). -/
def State.withFetchWord (s : State) (_nbits w : Nat) : State := s.presentWord w

end Sys2Proof.Machine
end

