-- ==== Sys2Proof/Machine/Sequences.lean ====
section
/-! DEFINITION. The host's sequences (45_host_sequences.md R161-R172): what the pseudo-instructions
expand to, BOOT, REFRESH, and the text a host writes. They bind the host, not the hardware: the machine
accepts every trace (20_memory.md R66), and no meaning uses them. -/

namespace Sys2Proof.Machine

/-! ### Pseudo-instructions -/

/-- `suspend` (R161). -/
def suspend : List Instr := [.wrCtrl 0x0000#16]

/-- `resume` (R162). -/
def resume : List Instr := [.wrCtrl 0x0003#16]

/-- `clearbuf` (R163). -/
def clearbuf : List Instr := [.wrCtrl 0x0004#16]

/-- `wr buf[k], s[0]`, `wr buf[k+1], s[1]`, ... in that order (R164). -/
def loadFrom (k : Nat) (t : Text) : List Instr :=
  match t with
  | [] => []
  | c :: rest => .wrBuf (BitVec.ofNat 5 k) (c.setWidth 16) :: loadFrom (k + 1) rest

/-- `loadtext "s"`, for at most 32 characters; it writes no terminator (R164). -/
def loadtext (t : Text) : List Instr := loadFrom 0 t

/-- `setstc v` (R166). -/
def setstc (v : Word) : List Instr := [.wrStc v]

/-- `pollstc` (R166). -/
def pollstc : List Instr := [.rdStc]

/-! ### Texts -/

/-- The startup pattern `"8.8.8.8.8.8.8.8."` (R113, R167). -/
def startupText : Text :=
  [0x38#8, 0x2E#8, 0x38#8, 0x2E#8, 0x38#8, 0x2E#8, 0x38#8, 0x2E#8,
   0x38#8, 0x2E#8, 0x38#8, 0x2E#8, 0x38#8, 0x2E#8, 0x38#8, 0x2E#8]

/-- The ASCII code of a decimal digit (30_encoding.md R72). -/
def digitChar (n : Nat) : Byte := BitVec.ofNat 8 (0x30 + n % 10)

/-- The decimal digits of `n`, at most `fuel` of them. -/
def decimalDigits (fuel n : Nat) : Text :=
  match fuel with
  | 0 => []
  | k + 1 => if n < 10 then [digitChar n] else decimalDigits k (n / 10) ++ [digitChar n]

/-- The decimal text of a number. -/
def decimalText (n : Nat) : Text := decimalDigits (n + 1) n

/-- What the sensor gave the host (R170, R171): a reading, or an error code. -/
inductive Sample where
  | good (temperature humidity : Rat)
  | failed (code : Int)
  deriving DecidableEq, Repr

/-- The text of a failed sample: the code in decimal, with a leading `'-'` when it is negative (R171).
The text of code 0 and the sign of a positive code are any value, so both are arguments (log 11). -/
def errorText (p : HostParams) (e : Int) : Text :=
  if e = 0 then p.codeZeroText
  else (if e < 0 then [0x2D#8] else p.positiveSign) ++ decimalText e.natAbs

/-- The text the host writes for a sample (R170, R171). -/
def sampleText (p : HostParams) (r : Sample) : Text :=
  match r with
  | .good t h => p.fmt t ++ p.fmt h
  | .failed e => errorText p e

/-! ### Sequences -/

/-- The counter value the host writes after a sample (R172). -/
def sampleStc (p : HostParams) (r : Sample) : Word :=
  match r with
  | .good _ _ => 0x0000#16
  | .failed _ => p.retryPreset

/-- BOOT (R167). -/
def boot (p : HostParams) : List Instr :=
  clearbuf ++ loadtext startupText ++ setstc (p.refreshThreshold - 1#16) ++ resume

/-- REFRESH after the sensor has been read with EN = 1 (R169, conflict C3). -/
def refresh (p : HostParams) (r : Sample) : List Instr :=
  suspend ++ clearbuf ++ loadtext (sampleText p r) ++ setstc (sampleStc p r) ++ resume

/-- The host's refresh test on the value `pollstc` returned: STC ≥ REFRESH_THRESHOLD (R168). -/
def refreshDue (p : HostParams) (stc : Word) : Bool := p.refreshThreshold ≤ stc

/-- A sequence as a trace with one event a cycle. -/
def inputsOf (is : List Instr) : List Cycle := is.map Cycle.ofInstr

end Sys2Proof.Machine
end

