-- ==== Sys2Proof/Machine/Asm.lean ====
section
/-! DEFINITION. The trace syntax (30_encoding.md R82, R83): the assembler from lines of text to cycles.
One line is one cycle, but for `loadtext`, which is as many cycles as it has characters (log 13, DESIGN
CHOICE). -/

namespace Sys2Proof.Machine

/-- A register operand, `<reg>` (R82). -/
inductive Reg where
  | ctrl | status | stc | disp | gprobe
  | buf (i : CellIndex)
  | bufterm
  | at (a : Addr)
  deriving DecidableEq, Repr

/-- The address a register operand names (10_state.md R32). -/
def Reg.addr : Reg → Addr
  | .ctrl => 0x00#8
  | .status => 0x01#8
  | .stc => 0x02#8
  | .disp => 0x03#8
  | .gprobe => 0x04#8
  | .buf i => bufAddr i
  | .bufterm => 0x40#8
  | .at a => a

/-- One statement of a line: an event, `idle`, or a pseudo-instruction (R82, R83). -/
inductive Stmt where
  | tick
  | reset
  | idle
  | rd (r : Reg)
  | wr (r : Reg) (v : Word)
  | suspend
  | resume
  | clearbuf
  | loadtext (t : Text)
  | setstc (v : Word)
  | pollstc
  deriving DecidableEq, Repr

/-- The op words of a statement (R70, R82, R83). -/
def Stmt.words : Stmt → List OpWord
  | .tick => [encode .tick]
  | .reset => [encode .reset]
  | .idle => []
  | .rd r => [readWord r.addr]
  | .wr r v => [writeWord r.addr v]
  | .suspend => Sys2Proof.Machine.suspend.map encode
  | .resume => Sys2Proof.Machine.resume.map encode
  | .clearbuf => Sys2Proof.Machine.clearbuf.map encode
  | .loadtext t => (Sys2Proof.Machine.loadtext t).map encode
  | .setstc v => (Sys2Proof.Machine.setstc v).map encode
  | .pollstc => Sys2Proof.Machine.pollstc.map encode

/-- Put one more event into a cycle, keeping the order RESET, TICK, bus and at most one of each (R57,
R82). -/
def Cycle.add (c : Cycle) (w : OpWord) : Option Cycle :=
  if c.bus.isSome then none
  else if OpWord.kind w = 0b11#2 then
    if c.rst.isSome || c.tick.isSome then none else some { c with rst := some (OpWord.payload w) }
  else if OpWord.kind w = 0b10#2 then
    if c.tick.isSome then none else some { c with tick := some (OpWord.payload w) }
  else some { c with bus := (Cycle.ofWord w).bus }

/-- The one cycle of the events of a line with several (R82). -/
def Cycle.ofWords (ws : List OpWord) : Option Cycle :=
  ws.foldlM Cycle.add Cycle.idle

/-- The cycles of a line: a statement alone is one cycle an event, `idle` an empty cycle; statements
separated by `|` share one cycle, one event each. -/
def lineCycles (ss : List Stmt) : Option (List Cycle) :=
  match ss with
  | [] => some []
  | [.idle] => some [Cycle.idle]
  | [st] => some (st.words.map Cycle.ofWord)
  | _ =>
    if ss.all fun st => st.words.length == 1 then
      (Cycle.ofWords (ss.flatMap Stmt.words)).map fun c => [c]
    else none

/-! ### Reading a line -/

/-- A token of a line; `bad` is a string literal that does not close. -/
inductive Token where
  | name (cs : List Char)
  | chr (c : Char)
  | str (cs : List Char)
  | comma
  | bar
  | bad
  deriving DecidableEq, Repr

/-- The name read so far, put before the tokens that follow it. -/
def flushName (acc : List Char) (rest : List Token) : List Token :=
  if acc = [] then rest else .name acc.reverse :: rest

/-- The tokens of a line, up to a comment's `;` (R82). `str` holds an open string literal, `acc` an open
name, both reversed. Inside a character or string literal `;`, `|` and `,` are characters like any other,
and there is no escape, so that `"` always ends a string: the spec says neither (log 13, DESIGN
CHOICE). -/
def lex (str : Option (List Char)) (acc : List Char) (cs : List Char) : List Token :=
  match str, cs with
  | some _, [] => [.bad]
  | some t, '"' :: rest => .str t.reverse :: lex none [] rest
  | some t, c :: rest => lex (some (c :: t)) [] rest
  | none, [] => flushName acc []
  | none, ';' :: _ => flushName acc []
  | none, ' ' :: rest => flushName acc (lex none [] rest)
  | none, ',' :: rest => flushName acc (.comma :: lex none [] rest)
  | none, '|' :: rest => flushName acc (.bar :: lex none [] rest)
  | none, '"' :: rest => flushName acc (lex (some []) [] rest)
  | none, '\'' :: c :: '\'' :: rest => flushName acc (.chr c :: lex none [] rest)
  | none, c :: rest => lex none (c :: acc) rest

/-- The value of a digit of base 16. -/
def hexDigit (c : Char) : Option Nat :=
  let n := c.toNat
  if 0x30 ≤ n ∧ n ≤ 0x39 then some (n - 0x30)
  else if 0x61 ≤ n ∧ n ≤ 0x66 then some (n - 0x61 + 10)
  else if 0x41 ≤ n ∧ n ≤ 0x46 then some (n - 0x41 + 10)
  else none

/-- The number that digits of a base spell after those already read. -/
def readDigits (base acc : Nat) (cs : List Char) : Option Nat :=
  match cs with
  | [] => some acc
  | c :: rest =>
    match hexDigit c with
    | some d => if d < base then readDigits base (acc * base + d) rest else none
    | none => none

/-- A number of at least one digit, `0x` and hex digits or decimal digits. -/
def readNumber (cs : List Char) : Option Nat :=
  match cs with
  | [] => none
  | ['0', 'x'] => none
  | '0' :: 'x' :: rest => readDigits 16 0 rest
  | _ => readDigits 10 0 cs

/-- A number below `bound`. -/
def readBelow (bound : Nat) (cs : List Char) : Option Nat :=
  (readNumber cs).filter fun n => n < bound

/-- The 8-bit code of an ASCII character (30_encoding.md R72). -/
def asciiCode (c : Char) : Option Byte :=
  if c.toNat < 128 then some (BitVec.ofNat 8 c.toNat) else none

/-- A register operand (R82). The index in `buf[<i>]` may be decimal or `0x` hex, as an immediate may;
the spec does not say its base (log 13, DESIGN CHOICE). -/
def readReg (cs : List Char) : Option Reg :=
  match cs with
  | ['c', 't', 'r', 'l'] => some .ctrl
  | ['s', 't', 'a', 't', 'u', 's'] => some .status
  | ['s', 't', 'c'] => some .stc
  | ['d', 'i', 's', 'p'] => some .disp
  | ['g', 'p', 'r', 'o', 'b', 'e'] => some .gprobe
  | ['b', 'u', 'f', 't', 'e', 'r', 'm'] => some .bufterm
  | '@' :: '0' :: 'x' :: rest =>
    (readBelow 256 ('0' :: 'x' :: rest)).map fun n => .at (BitVec.ofNat 8 n)
  | 'b' :: 'u' :: 'f' :: '[' :: rest =>
    if rest.getLast? = some ']' then
      (readBelow 32 rest.dropLast).map fun n => .buf (BitVec.ofNat 5 n)
    else none
  | _ => none

/-- An immediate: a 16-bit number, or a character literal (R82). -/
def readImm (t : Token) : Option Word :=
  match t with
  | .name cs => (readBelow (2 ^ 16) cs).map (BitVec.ofNat 16)
  | .chr c => (asciiCode c).map (BitVec.setWidth 16)
  | _ => none

/-- One statement (R82, R83); `loadtext` takes at most 32 characters (R164). -/
def readStmt (ts : List Token) : Option Stmt :=
  match ts with
  | [.name ['t', 'i', 'c', 'k']] => some .tick
  | [.name ['r', 'e', 's', 'e', 't']] => some .reset
  | [.name ['i', 'd', 'l', 'e']] => some .idle
  | [.name ['r', 'd'], .name r] => (readReg r).map .rd
  | [.name ['w', 'r'], .name r, .comma, v] =>
    match readReg r, readImm v with
    | some r, some v => some (.wr r v)
    | _, _ => none
  | [.name ['s', 'u', 's', 'p', 'e', 'n', 'd']] => some .suspend
  | [.name ['r', 'e', 's', 'u', 'm', 'e']] => some .resume
  | [.name ['c', 'l', 'e', 'a', 'r', 'b', 'u', 'f']] => some .clearbuf
  | [.name ['l', 'o', 'a', 'd', 't', 'e', 'x', 't'], .str cs] =>
    if cs.length ≤ 32 then (cs.mapM asciiCode).map .loadtext else none
  | [.name ['s', 'e', 't', 's', 't', 'c'], v] => (readImm v).map .setstc
  | [.name ['p', 'o', 'l', 'l', 's', 't', 'c']] => some .pollstc
  | _ => none

/-- The tokens between the bars. -/
def splitBars (ts : List Token) : List (List Token) :=
  match ts with
  | [] => [[]]
  | t :: rest =>
    match t, splitBars rest with
    | .bar, ps => [] :: ps
    | t, p :: ps => (t :: p) :: ps
    | t, [] => [[t]]

/-- The cycles of one line of a trace; a line that holds no statement has none. -/
def readLine (cs : List Char) : Option (List Cycle) :=
  match lex none [] cs with
  | [] => some []
  | ts => ((splitBars ts).mapM readStmt).bind lineCycles

/-- The cycles of a trace's lines (R82). -/
def assemble (lines : List (List Char)) : Option (List Cycle) :=
  (lines.mapM readLine).map List.flatten

end Sys2Proof.Machine
end

