-- ==== Sys2Proof/Machine/Display.lean ====
section
/-! DEFINITION. What a run of executed ticks shows (41_render_tick.md R111-R119), and the timing that
follows from it (70_reset_and_hazards.md R219, R220; log 12, DEDUCED). No meaning
uses these: they name what the rules about several ticks speak of. -/

namespace Sys2Proof.Machine

/-- `n` executed ticks with no other event between them. -/
def State.ticks (n : Nat) (s : State) : State :=
  match n with
  | 0 => s
  | k + 1 => State.ticks k s.renderTick

/-- The (digit, glyph) pairs that `n` executed ticks show, in order (95_test_vectors.md 2.2). -/
def State.shown (n : Nat) (s : State) : List (BitVec 3 × Byte) :=
  match n with
  | 0 => []
  | k + 1 => (s.dc, s.tickGlyph) :: State.shown k s.renderTick

/-- The first index in `start, ..., start + fuel` whose cell holds the terminator (R111). -/
def State.terminatorFrom (fuel start : Nat) (s : State) : Nat :=
  match fuel with
  | 0 => start
  | k + 1 => if s.cell start = charTerminator then start else State.terminatorFrom k (start + 1) s

/-- The index of the first terminator above CC; BUF[32] is one (R111). -/
def State.terminatorIndex (s : State) : Nat :=
  State.terminatorFrom (31 - s.cc.toNat) (s.cc.toNat + 1) s

/-- How many cells of BUF[lo], ..., BUF[lo+n-1] hold a character other than `'.'`: the digit slots
among them (R112). -/
def State.slots (lo n : Nat) (s : State) : Nat :=
  match n with
  | 0 => 0
  | k + 1 => (if s.cell lo = charDot then 0 else 1) + State.slots (lo + 1) k s

/-- On how many of the next `n` executed ticks digit `d` is energized (R119). -/
def State.energizedTicks (d : BitVec 3) (n : Nat) (s : State) : Nat :=
  (s.shown n).countP fun x => x.1 == d

/-- On how many of the next `n` executed ticks digit `d` shows a glyph that is not blank (R119). -/
def State.litTicks (d : BitVec 3) (n : Nat) (s : State) : Nat :=
  (s.shown n).countP fun x => x.1 == d && x.2 != 0x00#8

/-- The share of a display cycle of `n` ticks on which digit `d` is lit (R119). -/
def State.duty (d : BitVec 3) (n : Nat) (s : State) : Rat :=
  (s.litTicks d n : Rat) / n

/-- How often a display cycle of `t` ticks repeats, per second (R219). -/
def displayRate (c : ClockParams) (t : Nat) : Rat := c.fTick / t

/-- The refresh interval in seconds after a good sample (R220). -/
def goodInterval (c : ClockParams) (p : HostParams) : Rat :=
  (p.refreshThreshold.toNat : Rat) / c.fTick

/-- The refresh interval in seconds after a failed sample (R220). -/
def retryInterval (c : ClockParams) (p : HostParams) : Rat :=
  ((p.refreshThreshold.toNat : Rat) - p.retryPreset.toNat) / c.fTick

end Sys2Proof.Machine
end

