-- ==== Sys2Proof/Machine/HostDuties.lean ====
section
/-! DEFINITION. A correct host (45_host_sequences.md R160, R162, R165, R172, R173): the text it writes and
the duties it keeps along a sequence of events. They bind the host; the machine accepts every trace
(20_memory.md R66), and no meaning uses them. -/

namespace Sys2Proof.Machine

/-! ### Well-formed text (R165) -/

/-- A character a correct host writes: `'0'`..`'9'`, `'-'` or `'.'` (45_host_sequences.md R165). -/
def textChar (c : Byte) : Bool :=
  (charZero ≤ c && c ≤ charNine) || c == charMinus || c == charDot

/-- No `'.'` follows another `'.'` (R165). -/
def noDoubleDot (t : Text) : Bool :=
  match t with
  | [] => true
  | c :: rest => !(c == charDot && rest.head? == some charDot) && noDoubleDot rest

/-- Well-formed text (R165). -/
def wellFormedText (t : Text) : Bool :=
  t.length ≤ 32 && t.all textChar && t.head? != some charDot && noDoubleDot t &&
    t.countP (· != charDot) ≤ 8

/-- The writable cells of a buffer hold a well-formed text and 0x00 after it: what well-formed text
written into a cleared buffer leaves (R160, R165). -/
def holdsText (m : Memory) : Bool :=
  let cells := (List.range 32).map (Memory.read m)
  let text := cells.takeWhile (· != charTerminator)
  wellFormedText text && (cells.drop text.length).all (· == charTerminator)

/-! ### Mutual exclusion (R162, R173) -/

/-- An event keeps the duties on EN, in a state with this EN: it writes and clears the buffer only while
EN = 0, and it sets EN from 0 to 1 only together with CRST. -/
def keepsEnDuties (en : Bool) (i : Instr) : Bool :=
  match i with
  | .wrBuf _ _ => !en
  | .wrCtrl v => (!ctrlClr v || !en) && (!ctrlEn v || en || ctrlCrst v)
  | .rdCtrl | .rdStatus | .rdStc | .rdDisp | .rdGprobe | .rdBuf _ | .rdBufterm | .rdRsvd _
  | .wrStatus _ | .wrStc _ | .wrDisp _ | .wrGprobe _ | .wrBufterm _ | .wrRsvd _ _ | .tick | .reset
  | .rsvdEvent _ _ => true

/-- EN after an event (10_state.md R26). -/
def enAfter (en : Bool) (i : Instr) : Bool :=
  match i with
  | .wrCtrl v => ctrlEn v
  | .reset => false
  | .rdCtrl | .rdStatus | .rdStc | .rdDisp | .rdGprobe | .rdBuf _ | .rdBufterm | .rdRsvd _
  | .wrStatus _ | .wrStc _ | .wrDisp _ | .wrGprobe _ | .wrBuf _ _ | .wrBufterm _ | .wrRsvd _ _ | .tick
  | .rsvdEvent _ _ => en

/-- A host keeps the duties on EN along a sequence of events, from a state with this EN (R162, R173; log
14, DESIGN CHOICE). -/
def dutiful (en : Bool) (is : List Instr) : Bool :=
  match is with
  | [] => true
  | i :: rest => keepsEnDuties en i && dutiful (enAfter en i) rest

/-! ### Every duty of R160 (log 14, DESIGN CHOICE) -/

/-- What a rewrite of the buffer is for: BOOT, after a RESET or without one (R167), or a sample (R169). -/
inductive Rewrite where
  | boot
  | sample (r : Sample)
  deriving DecidableEq, Repr

/-- The counter value the host writes in a rewrite (R172). -/
def Rewrite.stc (p : HostParams) (w : Rewrite) : Word :=
  match w with
  | .boot => p.refreshThreshold - 1#16
  | .sample r => sampleStc p r

/-- What a host must remember of its own events to keep its duties. -/
structure HostView where
  /-- EN, as its CTRL writes left it. -/
  en       : Bool
  /-- A rewrite of BOOT has been resumed since the last RESET. -/
  booted   : Bool
  /-- The buffer as cleared and written while EN = 0; `none` where it has not been cleared since EN
  became 0, so that nothing may be written into it. -/
  text     : Option Memory
  /-- The last value written to STC since a rewrite was resumed. -/
  stc      : Option Word
  /-- The rewrites that the host resumes from here on, the next one first. -/
  rewrites : List Rewrite
  deriving DecidableEq, Repr

/-- The view right after RESET: EN = 0, the buffer clear (R41), and BOOT owed. -/
def HostView.reset (rewrites : List Rewrite) : HostView :=
  ⟨false, false, some [], none, rewrites⟩

/-- The counter value the next rewrite owes (R172). After a RESET that rewrite is BOOT (R167); none where
no rewrite is to come, or where a sample would come before BOOT. -/
def HostView.dueStc (p : HostParams) (h : HostView) : Option Word :=
  match h.rewrites with
  | [] => none
  | w :: _ => if h.booted || w == .boot then some (w.stc p) else none

/-- EN becomes 1. Where the buffer was cleared or written, it holds a well-formed text and the counter
the value owed. -/
def HostView.resume (p : HostParams) (h : HostView) : Option HostView :=
  match h.text with
  | none => some { h with en := true }
  | some m =>
    if holdsText m && h.stc.isSome && h.stc == h.dueStc p then
      some ⟨true, true, none, none, h.rewrites.tail⟩
    else none

/-- A CTRL write: CLR only while EN = 0 (R173), and EN from 0 to 1 only together with CRST (R162). -/
def HostView.writeCtrl (p : HostParams) (v : Word) (h : HostView) : Option HostView :=
  if ctrlClr v && h.en then none
  else
    let h := if ctrlClr v then { h with text := some [] } else h
    if ctrlEn v then
      if h.en then some h else if ctrlCrst v then h.resume p else none
    else some (if h.en then { h with en := false, text := none } else h)

/-- A buffer write: only while EN = 0, into a buffer cleared since EN became 0 (R160, R173). -/
def HostView.writeCell (i : CellIndex) (c : Byte) (h : HostView) : Option HostView :=
  if h.en then none
  else h.text.map fun m => { h with text := some (Memory.write m i.toNat c) }

/-- The view after one event; `none` where the event breaks a duty. Besides the duties of R160 a correct
host reads no reserved address (92_eei_decisions.md D9) and writes no read-only register (D30). That a
write of a reserved address is refused too, and that the accesses R160 does not list otherwise are
admitted, is the model's reading (log 14, DESIGN CHOICE). -/
def HostView.next (p : HostParams) (h : HostView) (i : Instr) : Option HostView :=
  match i with
  | .wrCtrl v => h.writeCtrl p v
  | .wrBuf n v => h.writeCell n (lowByte v)
  | .wrStc v => some { h with stc := some v }
  | .reset => some (HostView.reset h.rewrites)
  | .rdRsvd _ | .wrRsvd _ _ | .wrStatus _ | .wrDisp _ | .wrBufterm _ => none
  | .rdCtrl | .rdStatus | .rdStc | .rdDisp | .rdGprobe | .rdBuf _ | .rdBufterm | .wrGprobe _ | .tick
  | .rsvdEvent _ _ => some h

/-- The view after a sequence of events; `none` where one of them breaks a duty. -/
def HostView.run (p : HostParams) (h : HostView) (is : List Instr) : Option HostView :=
  match is with
  | [] => some h
  | i :: rest =>
    match h.next p i with
    | some g => HostView.run p g rest
    | none => none

/-- The view is true of the machine: the same EN, and a buffer that is the one being written while
EN = 0, or else holds a well-formed text. -/
def HostView.agrees (h : HostView) (s : State) : Bool :=
  s.en == h.en &&
    match h.text with
    | none => holdsText s.buf
    | some m => !h.en && s.buf == m

end Sys2Proof.Machine
end

