-- ==== Sys2Proof/Safety.lean ====
section
/-! DEFINITION. What claims speak of: the invariant of the machine, its runs, the cycles hardware can
produce, and a conforming tick source. A correct host is in Machine/HostDuties.lean. The machine checks
neither the host nor the tick source (20_memory.md R66). -/

namespace Sys2Proof.Machine

/-! ### The machine -/

/-- At most one bit is set (10_state.md R28, R43). -/
def atMostOneBit (x : Byte) : Bool := x &&& (x - 1#8) == 0#8

/-- The pins against the output registers, phase by phase (70_reset_and_hazards.md R214): at IDLE they
agree, and during a sequence no segment is lit. -/
def State.pinsCoherent (s : State) : Bool :=
  match s.ph with
  | .idle => s.segPin == s.segOut && s.digPin == s.digOut
  | .p1 => s.segPin == 0x00#8
  | .p2 => s.segPin == 0x00#8 && s.digPin == s.digOut

/-- What holds after every event (10_state.md R43, R28, 70_reset_and_hazards.md R214): the buffer in
canonical form (the model's own, log 3, DEDUCED), at most one digit energized at the register and at the
pins, no glyph where no digit was ever energized, and the pins coherent. CC in 0..31 and DC in 0..7 are in their types. -/
def State.inv (s : State) : Bool :=
  Memory.wf s.buf && atMostOneBit s.digOut && atMostOneBit s.digPin &&
    (s.digOut != 0x00#8 || s.segOut == 0x00#8) && s.pinsCoherent

/-- The segments never show one tick's glyph on another tick's digit (R214). -/
def State.ghostFree (s : State) : Bool :=
  s.segPin == 0x00#8 || (s.segPin == s.segOut && s.digPin == s.digOut)

/-- Two states answer the same to every read of a buffer cell. -/
def sameCells (s t : State) : Prop := ∀ i, s.cell i = t.cell i

/-- `n` steps from a state, stopping at the first refusal: a finite prefix of a run
(45_host_sequences.md R176). It is the run of `Sys2Proof.core` (Laws/Cycle.lean). -/
def runSteps (n : Nat) (s : State) : Host.Outcome State Fault Refusal :=
  match n with
  | 0 => .next s
  | k + 1 =>
    match step s with
    | .next t => runSteps k t
    | .fault r => .fault r
    | .refused r => .refused r

/-- The cycle is one hardware can produce: neither the tick nor the reset carries a payload
(30_encoding.md R80). -/
def Cycle.real (c : Cycle) : Bool :=
  c.rst.all (· == 0#24) && c.tick.all (· == 0#24)

/-! ### The tick source -/

/-- No tick comes before `wait` cycles have passed, and any two ticks are at least MIN_TICK_GAP cycles
apart (70_reset_and_hazards.md R215). -/
def tickGapOk (wait : Nat) (cs : List Cycle) : Bool :=
  match cs with
  | [] => true
  | c :: rest =>
    if c.tick.isSome then wait == 0 && tickGapOk (minTickGap - 1) rest
    else tickGapOk (wait - 1) rest

end Sys2Proof.Machine
end

