-- ==== Sys2Proof/Certificates/Slice0/Obligations.lean ====
section
/-! DEFINITION. The statements for the provers, each from the numbered rules its docstring names. A
statement about every state holds in states no run reaches too, or names the invariant it needs. -/

open Sys2Proof Sys2Proof.Machine

/-! ### Encoding -/

/-- Decoding the op word of a well-formed event gives the event back, every operand included (R70, R71,
R75, R80). -/
def Obligations.DecodeOfEncodeIsIdentity : Prop :=
  ∀ i : Instr, i.wellFormed = true → decode (encode i) = i

/-- The other way: encoding what a word decodes to gives the word back where it is no bus read, and the
word with its ignored data field cleared where it is one (R70, R77). -/
def Obligations.EncodeOfDecodeIsTheWord : Prop :=
  ∀ w : OpWord,
    ((decode w).isRead = false → encode (decode w) = w) ∧
    ((decode w).isRead = true → encode (decode w) = busWord (OpWord.kind w) (OpWord.addr w) 0#16)

/-- Every word decodes to a well-formed event (R76, R80, R144, R145). -/
def Obligations.DecodedEventsAreWellFormed : Prop :=
  ∀ w : OpWord, (decode w).wellFormed = true

/-- R76: at most one specific row of the opcode table matches a word; where one does, the decoder takes
it, and otherwise it takes a fallback row that matches. So every word decodes to exactly one row. -/
def Obligations.DecoderFollowsTheOpcodeTable : Prop :=
  ∀ w : OpWord,
    (opTable.filter fun r => !r.fallback && r.matchesWord w).length ≤ 1 ∧
    (opTable.filter fun r => r.fallback && r.matchesWord w).length = 1 ∧
    (∀ r, opTable.find? (fun r => !r.fallback && r.matchesWord w) = some r →
      (decode w).row = r.row) ∧
    (opTable.find? (fun r => !r.fallback && r.matchesWord w) = none →
      ∃ r, opTable.find? (fun r => r.fallback && r.matchesWord w) = some r ∧ (decode w).row = r.row)

/-- R84: the worked encodings, as the assembler's op words and as what they decode to. The spec marks
R84 as derived. -/
def Obligations.WorkedEncodings : Prop :=
  Stmt.words .tick = [0x2000000#26] ∧ Stmt.words .reset = [0x3000000#26] ∧
  Stmt.words (.rd .ctrl) = [0x0000000#26] ∧ Stmt.words (.wr .ctrl 0x0003#16) = [0x1000003#26] ∧
  Stmt.words (.wr .ctrl 0x0004#16) = [0x1000004#26] ∧ Stmt.words (.rd .status) = [0x0010000#26] ∧
  Stmt.words (.wr .stc 0x03E7#16) = [0x10203E7#26] ∧ Stmt.words (.rd .stc) = [0x0020000#26] ∧
  Stmt.words (.rd .disp) = [0x0030000#26] ∧ Stmt.words (.wr .gprobe 0x0038#16) = [0x1040038#26] ∧
  Stmt.words (.wr (.buf 0#5) 0x0038#16) = [0x1200038#26] ∧
  Stmt.words (.wr (.buf 1#5) 0x002E#16) = [0x121002E#26] ∧
  Stmt.words (.wr (.buf 31#5) 0x0030#16) = [0x13F0030#26] ∧
  Stmt.words (.rd .bufterm) = [0x0400000#26] ∧ Stmt.words (.rd (.at 0x41#8)) = [0x0410000#26] ∧
  decode 0x2000000#26 = .tick ∧ decode 0x3000000#26 = .reset ∧ decode 0x0000000#26 = .rdCtrl ∧
  decode 0x1000003#26 = .wrCtrl 0x0003#16 ∧ decode 0x1000004#26 = .wrCtrl 0x0004#16 ∧
  decode 0x0010000#26 = .rdStatus ∧ decode 0x10203E7#26 = .wrStc 0x03E7#16 ∧
  decode 0x0020000#26 = .rdStc ∧ decode 0x0030000#26 = .rdDisp ∧
  decode 0x1040038#26 = .wrGprobe 0x0038#16 ∧ decode 0x1200038#26 = .wrBuf 0#5 0x0038#16 ∧
  decode 0x121002E#26 = .wrBuf 1#5 0x002E#16 ∧ decode 0x13F0030#26 = .wrBuf 31#5 0x0030#16 ∧
  decode 0x0400000#26 = .rdBufterm ∧ decode 0x0410000#26 = .rdRsvd 0x41#8

/-- R77: any value of word[15:0] in a read decodes to the same read, and the encoder writes 0 there. -/
def Obligations.ReadsIgnoreTheDataField : Prop :=
  (∀ (a : Addr) (d d' : Word), decode (busWord 0b00#2 a d) = decode (busWord 0b00#2 a d') ∧
    (decode (busWord 0b00#2 a d)).isRead = true) ∧
  ∀ i : Instr, i.isRead = true → OpWord.data (encode i) = 0#16

/-- R82: a line of several events spells the cycle that presents exactly its op words, in their order;
and a buffer register and its address are the same word. The cycles a line spells are the model's (log
13). -/
def Obligations.AssembledLinePresentsItsWords : Prop :=
  (∀ (ws : List OpWord) (c : Cycle), Cycle.ofWords ws = some c → c.words = ws) ∧
  ∀ (i : CellIndex) (v : Word),
    Stmt.words (.rd (.buf i)) = Stmt.words (.rd (.at (0x20#8 + i.setWidth 8))) ∧
    Stmt.words (.wr (.buf i) v) = Stmt.words (.wr (.at (0x20#8 + i.setWidth 8)) v)

/-- R80: a word with KIND 10 or 11 and a nonzero payload reads neither as a TICK nor as a RESET, and its
event is refused in every state. (A cycle that presents one: EveryRealCycleCompletes.) -/
def Obligations.ReservedEventIsRefused : Prop :=
  ∀ (w : OpWord) (s : State), (OpWord.kind w = 0b10#2 ∨ OpWord.kind w = 0b11#2) →
    OpWord.payload w ≠ 0#24 →
    decode w ≠ .tick ∧ decode w ≠ .reset ∧
    (decode w).row = .rsvdEvent ∧ exec (decode w) s = .refused .reservedEventPayload

/-- RSVD_EVENT stops on every path, under the refusal the spec names (R80). -/
def Obligations.RsvdEventStops : Prop :=
  ∀ (k : BitVec 1) (p : Payload) (s : State),
    exec (.rsvdEvent k p) s = .refused .reservedEventPayload

/-! ### The step -/

/-- One step runs exactly the event of the word presented, between the beginning of the cycle and its
edge (R57, R59): for a well-formed event in a cycle of its own, for any op word, and for a word placed
by `withFetchWord`. Around the event the step takes the cycle off the trace, clears W and the read data,
and at the edge moves the pins alone. The model's own: that the events come from State.trace, a cycle a
step (log 1), that a cycle begins with no read data and an empty W (log 4, log 5), and that the count of
bits picks nothing (log 9). -/
def Obligations.StepRunsTheDecodedEvent : Prop :=
  ∀ s : State,
    (∀ (i : Instr) (rest : List Cycle), i.wellFormed = true → s.trace = Cycle.ofInstr i :: rest →
      step s = endCycle (exec i (s.beginCycle rest))) ∧
    (∀ (w : OpWord) (rest : List Cycle), s.trace = Cycle.ofWord w :: rest →
      step s = endCycle (exec (decode w) (s.beginCycle rest))) ∧
    (∀ nbits w : Nat, w < 2 ^ 26 → step (s.withFetchWord nbits w) =
      endCycle (exec (decode (BitVec.ofNat 26 w)) (s.beginCycle s.trace))) ∧
    (∀ rest : List Cycle, s.beginCycle rest = { s with trace := rest, writes := [], rdata := none }) ∧
    endCycle (.next s) = .next s.clockEdge ∧
    s.clockEdge = { s with
      ph := s.clockEdge.ph, segPin := s.clockEdge.segPin, digPin := s.clockEdge.digPin }

/-- R57: with rst = 1 the cycle is the single event RESET, and a tick and a bus access in it are
discarded, a read among them returning no data; otherwise the tick comes first and then the bus event,
so that a bus write overrides the tick's update, the tick reads the old buffer, and sees the old EN. The
ports are presented through State.trace (log 1); read data and W after a RESET (log 4, log 5) and
the canonical buffer that the stored cell is read back from (log 3) are the model's. -/
def Obligations.EventsOfACycleTakeEffectInOrder : Prop :=
  (∀ (s : State) (k : Bool) (b : Option BusAccess) (rest : List Cycle),
    s.trace = Cycle.ofPorts true k b :: rest → step s = .next { State.reset with trace := rest }) ∧
  (∀ (s : State) (k : Bool) (b : Option BusAccess) (rest : List Cycle),
    s.trace = Cycle.ofPorts false k b :: rest →
    step s = endCycle (execAll ((if k then [Instr.tick] else []) ++
      (b.map fun x => decode x.word).toList) (s.beginCycle rest))) ∧
  (∀ (s : State) (v : Word) (rest : List Cycle),
    s.trace = Cycle.ofPorts false true (some ⟨true, 0x02#8, v⟩) :: rest →
    ∃ t, step s = .next t ∧ t.stc = v) ∧
  (∀ (s : State) (v : Word) (rest : List Cycle),
    s.trace = Cycle.ofPorts false true (some ⟨true, 0x00#8, v⟩) :: rest →
    ∃ t, step s = .next t ∧ t.en = v.getLsbD 0 ∧
      (v.getLsbD 1 = true → t.cc = 0#5 ∧ t.dc = 0#3) ∧
      (s.en = true → t.segOut = s.tickGlyph ∧ t.digOut = s.tickDigit ∧ t.stc = s.stc + 1#16) ∧
      (s.en = false → t.segOut = s.segOut ∧ t.digOut = s.digOut ∧ t.stc = s.stc)) ∧
  (∀ (s : State) (i : CellIndex) (v : Word) (rest : List Cycle),
    s.trace = Cycle.ofPorts false true (some ⟨true, bufAddr i, v⟩) :: rest → s.en = true →
    ∃ t, step s = .next t ∧ t.segOut = s.tickGlyph ∧ t.cc = s.nextCc ∧ t.dc = s.nextDc ∧
      (Memory.wf s.buf = true → t.cell i.toNat = v.setWidth 8))

/-- R58: the data of a read is computed from the state after the TICK of its cycle, and is on the bus,
with bus_rvalid = 1, in the next cycle; a cycle with no read leaves bus_rvalid = 0. The ports are the
model's State.trace and State.rdata (log 1, log 4). -/
def Obligations.ReadDataComesInTheNextCycle : Prop :=
  (∀ (s : State) (k : Bool) (b : BusAccess) (rest : List Cycle), b.we = false →
    s.trace = Cycle.ofPorts false k (some b) :: rest →
    ∃ m n v t, execAll (if k then [Instr.tick] else []) (s.beginCycle rest) = .next m ∧
      exec (decode b.word) m = .next n ∧ n.rdata = some v ∧
      step s = .next t ∧ t.busRvalid = true ∧ t.busRdata = some v) ∧
  (∀ (s t : State) (k : Bool) (b : Option BusAccess) (rest : List Cycle), (∀ x, b = some x → x.we = true) →
    s.trace = Cycle.ofPorts false k b :: rest → step s = .next t → t.busRvalid = false)

/-- DISP7 never stops (R176, R180): a cycle hardware can produce answers a next state from every state,
and so does the absence of further input; the only stop is the refusal of a reserved payload (R80). That
an empty trace is an idle cycle, and that a reserved word refuses its whole cycle, are the model's
choices (log 1, log 2). -/
def Obligations.EveryRealCycleCompletes : Prop :=
  ∀ s : State,
    ((∀ c, s.trace.head? = some c → c.real = true) →
      ∃ t, step s = .next t ∧ t.trace = s.trace.tail) ∧
    (∀ c rest, s.trace = c :: rest → c.real = false → step s = .refused .reservedEventPayload)

/-- Every event but the reserved one answers a next state in every state (R121, R180, R182). -/
def Obligations.EveryEventCompletes : Prop :=
  ∀ (i : Instr) (s : State), i.isRsvdEvent = false → ∃ t, exec i s = .next t

/-! ### Invariants -/

/-- Every step keeps the invariant: at most one digit energized at the register and at the pins (R28), no
glyph where no digit was energized (R41, R101), and the pins coherent (R214). Its clause that the buffer
is in canonical form is the model's own and no rule of the spec (log 3, DEDUCED). -/
def Obligations.StepKeepsTheInvariant : Prop :=
  ∀ s t : State, s.inv = true → step s = .next t → t.inv = true

/-- The state after reset has the invariant (R41); its clause that the buffer is in canonical form is the
model's own and no rule of the spec (log 3, DEDUCED). -/
def Obligations.ResetHasTheInvariant : Prop :=
  State.reset.inv = true

/-- R43, an inference the spec marks as derived: after every event CC is in 0..31, DC in 0..7,
BUF[32] = 0x00, and DIG_OUT is 0x00 or has exactly one bit set, from every state with such a DIG_OUT and
so after any events since a RESET; and DIG_OUT = 0x00 only if no executed tick has happened since. -/
def Obligations.InvariantsAfterEveryEvent : Prop :=
  (∀ (i : Instr) (s t : State), (s.digOut = 0x00#8 ∨ ∃ d : BitVec 3, s.digOut = 1#8 <<< d.toNat) →
    exec i s = .next t →
    t.cc.toNat ≤ 31 ∧ t.dc.toNat ≤ 7 ∧ t.cell 32 = 0x00#8 ∧
    (t.digOut = 0x00#8 ∨ ∃ d : BitVec 3, t.digOut = 1#8 <<< d.toNat)) ∧
  (∀ (is : List Instr) (s t : State), execAll (.reset :: is) s = .next t →
    t.digOut = 0x00#8 ∨ ∃ d : BitVec 3, t.digOut = 1#8 <<< d.toNat) ∧
  (∀ (is : List Instr) (s t : State), s.en = true → Instr.reset ∉ is →
    execAll (.tick :: is) s = .next t → t.digOut ≠ 0x00#8)

/-- The ghosting invariant of R214 along every run: from a state whose pins are coherent, after any
number of steps, lit segments are the last tick's glyph on the last tick's digit. A run is of the
model's steps (log 1). -/
def Obligations.NoGhostingAlongAnyRun : Prop :=
  ∀ (n : Nat) (s t : State), s.pinsCoherent = true → runSteps n s = .next t →
    t.segPin ≠ 0x00#8 → t.segPin = t.segOut ∧ t.digPin = t.digOut

/-! ### RESET -/

/-- R41: the value of every state element after a RESET event, from any state. -/
def Obligations.ResetValues : Prop :=
  ∀ s : State, ∃ t, exec .reset s = .next t ∧ (∀ k, k < 32 → t.cell k = 0x00#8) ∧
    t.cc = 0#5 ∧ t.dc = 0#3 ∧ t.stc = 0x0000#16 ∧ t.en = false ∧ t.segOut = 0x00#8 ∧
    t.digOut = 0x00#8 ∧ t.gp = 0x00#8 ∧ t.ph = .idle ∧ t.segPin = 0x00#8 ∧ t.digPin = 0x00#8

/-- After a RESET, whatever ticks and accesses follow, the display stays dark and nothing is enabled
until a CTRL write sets EN (R201). The spec marks R201 as derived. -/
def Obligations.DarkUntilResumed : Prop :=
  ∀ (is : List Instr) (s t : State), (∀ v, Instr.wrCtrl v ∈ is → v.getLsbD 0 = false) →
    execAll (.reset :: is) s = .next t →
    t.en = false ∧ t.digOut = 0x00#8 ∧ t.segOut = 0x00#8 ∧ t.segPin = 0x00#8 ∧ t.digPin = 0x00#8 ∧
      t.ph = .idle

/-! ### TICK and glyphs -/

/-- R101: TICK, written out from the pseudocode: the state it leaves and the write list W, with every
other field as it was. -/
def Obligations.TickRunsTheSevenSteps : Prop :=
  encode .tick = 0x2000000#26 ∧ ∀ s : State,
    (s.en = true →
      let ch := s.cell s.cc.toNat
      let nx := s.cell (s.cc.toNat + 1)
      let g := if nx = 0x2E#8 then glyphFor ch ||| 0x80#8 else glyphFor ch
      let dc' := if nx = 0x2E#8 then s.dc else s.dc + 1#3
      exec .tick s = .next { s with
        cc := if nx = 0x00#8 then 0#5 else s.cc + 1#5
        dc := if nx = 0x00#8 then 0#3 else dc'
        stc := s.stc + 1#16
        segOut := g
        digOut := 1#8 <<< s.dc.toNat
        writes := [.setSegments 0x00#8, .selectDigit s.dc, .setSegments g] }) ∧
    (s.en = false → exec .tick s = .next { s with writes := [] })

/-- R100: a TICK while EN = 0 changes no state and produces no display write; its cycle is the same as
an idle one, a pin sequence in progress included, so nothing of it is pending afterwards. The write list
is the model's field (log 5), the cycle the model's step (log 1). -/
def Obligations.DroppedTickIsAnIdleCycle : Prop :=
  ∀ (s : State) (rest : List Cycle), s.en = false →
    exec .tick s = .next { s with writes := [] } ∧
    step { s with trace := Cycle.ofInstr .tick :: rest } =
      step { s with trace := Cycle.idle :: rest }

/-- R105, R107, R110: what the next character decides. A dot folds and holds DC; a terminator resets
both cursors; anything else advances DC modulo 8. CC moves by exactly one but at a terminator, and a
tick never both folds and resets. The spec marks R110 as derived. -/
def Obligations.NextCharacterDecidesTheCursors : Prop :=
  ∀ s t : State, s.en = true → exec .tick s = .next t →
    (s.nextChar = 0x2E#8 → t.cc.toNat = s.cc.toNat + 1 ∧ t.dc = s.dc ∧
      t.segOut = glyphFor s.currentChar ||| 0x80#8) ∧
    (s.nextChar = 0x00#8 → t.cc = 0#5 ∧ t.dc = 0#3 ∧ t.segOut = glyphFor s.currentChar) ∧
    (s.nextChar ≠ 0x2E#8 → s.nextChar ≠ 0x00#8 → t.cc.toNat = s.cc.toNat + 1 ∧
      t.dc.toNat = (s.dc.toNat + 1) % 8 ∧ t.segOut = glyphFor s.currentChar)

/-- R91-R94: the glyph table, with no dp bit in it, blank for every other code, and DP_MASK. -/
def Obligations.GlyphTableOfTheSpec : Prop :=
  glyphFor 0x30#8 = 0x3F#8 ∧ glyphFor 0x31#8 = 0x06#8 ∧ glyphFor 0x32#8 = 0x5B#8 ∧
  glyphFor 0x33#8 = 0x4F#8 ∧ glyphFor 0x34#8 = 0x66#8 ∧ glyphFor 0x35#8 = 0x6D#8 ∧
  glyphFor 0x36#8 = 0x7D#8 ∧ glyphFor 0x37#8 = 0x07#8 ∧ glyphFor 0x38#8 = 0x7F#8 ∧
  glyphFor 0x39#8 = 0x6F#8 ∧ glyphFor 0x2D#8 = 0x40#8 ∧
  (∀ c : Byte, (glyphFor c).getLsbD 7 = false) ∧
  (∀ c : Byte, ¬ (0x30#8 ≤ c ∧ c ≤ 0x39#8) → c ≠ 0x2D#8 → glyphFor c = 0x00#8) ∧
  glyphFor 0x2E#8 = 0x00#8 ∧ dpMask = 0x80#8

/-- R95: every table is blank outside the digits and '-', and DISP7's has one dot bit and lights every
segment on '8' with its dot; so does any table that passes the check. The spec marks R95 as derived. -/
def Obligations.GlyphTablesKeepTheSourceProperties : Prop :=
  (∀ (t : GlyphTable) (c : Byte), ¬ (0x30#8 ≤ c ∧ c ≤ 0x39#8) → c ≠ 0x2D#8 →
    t.glyph c = 0x00#8) ∧
  (∀ t : GlyphTable, t.ok = true →
    (∃ b : BitVec 3, t.dpMask = 1#8 <<< b.toNat) ∧ t.glyph 0x38#8 ||| t.dpMask = 0xFF#8) ∧
  disp7Glyphs.ok = true

/-- R111, cycle closure: with EN = 1 and no bus write, from any CC = c the cursors reset at exactly the
(t - c)-th executed tick, for the first terminator t above c, which is at most 32; and a text of length
L from 1 to 32, written into a cleared buffer, closes in exactly L ticks (1 where it is empty). Reads
may come between. The spec marks R111 as derived. -/
def Obligations.DisplayCycleCloses : Prop :=
  (∀ s : State, ∃ t, s.cc.toNat < t ∧ t ≤ 32 ∧ s.cell t = 0x00#8 ∧
    ∀ k, s.cc.toNat < k → k < t → s.cell k ≠ 0x00#8) ∧
  (∀ (s : State) (t : Nat) (is : List Instr), s.en = true → s.cc.toNat < t → t ≤ 32 →
    s.cell t = 0x00#8 → (∀ k, s.cc.toNat < k → k < t → s.cell k ≠ 0x00#8) →
    (∀ i ∈ is, i = .tick ∨ i.isRead = true) →
    ∃ u, execAll is s = .next u ∧
      (s.cc.toNat + is.count .tick < t → u.cc.toNat = s.cc.toNat + is.count .tick) ∧
      (s.cc.toNat + is.count .tick = t → u.cc = 0#5 ∧ u.dc = 0#3)) ∧
  (∀ (s : State) (txt : Text) (is : List Instr), txt.length ≤ 32 → (∀ c ∈ txt, c ≠ 0x00#8) →
    (∀ i ∈ is, i = .tick ∨ i.isRead = true) →
    ∃ u, execAll (clearbuf ++ loadtext txt ++ resume ++ is) s = .next u ∧
      (is.count .tick < txt.length → u.cc.toNat = is.count .tick) ∧
      (is.count .tick = max 1 txt.length → u.cc = 0#5 ∧ u.dc = 0#3))

/-- R112 and R114, slot counting: for a text of digits and '-', each followed by at most one '.', with
no leading '.', tick number i of the display cycle shows character i, a slot on the digit of its number
modulo 8 with the dot folded in, and a dot blank on the digit of its slot; with at most 8 slots exactly
the digits 0..k-1 are energized. The spec marks R112 and R114 as derived. -/
def Obligations.SlotsAreShownOnTheirDigits : Prop :=
  ∀ (s m : State) (txt : Text), 1 ≤ txt.length → txt.length ≤ 32 →
    txt.all textChar = true → txt.head? ≠ some 0x2E#8 → noDoubleDot txt = true →
    execAll (clearbuf ++ loadtext txt ++ resume) s = .next m →
    (∀ (i : Nat) (c : Byte), txt[i]? = some c →
      (m.shown txt.length)[i]? = some
        (BitVec.ofNat 3 ((txt.take (i + 1)).countP (· != 0x2E#8) - 1),
         if c = 0x2E#8 then 0x00#8
         else if txt[i + 1]? = some 0x2E#8 then glyphFor c ||| 0x80#8 else glyphFor c)) ∧
    (txt.countP (· != 0x2E#8) ≤ 8 → ∀ d : BitVec 3,
      (∃ g, (d, g) ∈ m.shown txt.length) ↔ d.toNat < txt.countP (· != 0x2E#8))

/-- R113: one display cycle of the startup pattern is 16 ticks; digits 0..7 are each energized on two
consecutive ticks, first with 0xFF and then with 0x00; the last tick, at CC = 15 and DC = 7, resets both
cursors. The spec marks R113 as derived. -/
def Obligations.StartupPatternIsShown : Prop :=
  ∀ s : State, ∃ m, execAll (clearbuf ++ loadtext startupText ++ resume) s = .next m ∧
    m.shown 16 = [(0#3, 0xFF#8), (0#3, 0x00#8), (1#3, 0xFF#8), (1#3, 0x00#8), (2#3, 0xFF#8),
      (2#3, 0x00#8), (3#3, 0xFF#8), (3#3, 0x00#8), (4#3, 0xFF#8), (4#3, 0x00#8), (5#3, 0xFF#8),
      (5#3, 0x00#8), (6#3, 0xFF#8), (6#3, 0x00#8), (7#3, 0xFF#8), (7#3, 0x00#8)] ∧
    (m.ticks 15).cc = 15#5 ∧ (m.ticks 15).dc = 7#3 ∧
    (m.ticks 16).cc = 0#5 ∧ (m.ticks 16).dc = 0#3

/-- R114 to R118, the texts a correct host avoids: a dot that follows no other character takes a slot of
its own, the first of two dots shows DP_MASK alone, a ninth slot overdraws digit 0, the empty text keeps
digit 0 blank, and a terminator at index 0 is stepped over. The spec marks R114 and R118 as derived. -/
def Obligations.MalformedTextsAreRendered : Prop :=
  ∀ s : State,
    (s.en = true → s.currentChar = 0x2E#8 → s.nextChar ≠ 0x2E#8 → s.nextChar ≠ 0x00#8 →
      ∃ t, exec .tick s = .next t ∧ t.segOut = 0x00#8 ∧ t.digOut = 1#8 <<< s.dc.toNat ∧
        t.dc = s.dc + 1#3) ∧
    (s.en = true → s.currentChar = 0x2E#8 → s.nextChar = 0x2E#8 →
      ∃ t, exec .tick s = .next t ∧ t.segOut = 0x80#8 ∧ t.digOut = 1#8 <<< s.dc.toNat ∧
        t.dc = s.dc) ∧
    (∃ m, execAll (clearbuf ++ loadtext [0x38#8, 0x2E#8, 0x2E#8, 0x38#8] ++ resume) s = .next m ∧
      m.shown 4 = [(0#3, 0xFF#8), (0#3, 0x80#8), (0#3, 0x00#8), (1#3, 0x7F#8)]) ∧
    (∃ m, execAll (clearbuf ++ loadtext [0x31#8, 0x32#8, 0x33#8, 0x34#8, 0x35#8, 0x36#8, 0x37#8,
        0x38#8, 0x39#8] ++ resume) s = .next m ∧ (m.shown 9)[8]? = some (0#3, 0x6F#8)) ∧
    (∃ m, execAll (clearbuf ++ resume) s = .next m ∧
      m.shown 2 = [(0#3, 0x00#8), (0#3, 0x00#8)] ∧ (m.ticks 1).cc = 0#5) ∧
    (∃ m, execAll (clearbuf ++ loadtext [0x00#8, 0x35#8] ++ resume) s = .next m ∧
      m.shown 3 = [(0#3, 0x00#8), (1#3, 0x6D#8), (0#3, 0x00#8)])

/-- `shown` is what executed ticks do: its n-th pair is DC and the glyph of the n-th tick's write list,
and SEG_OUT and DIG_OUT after it (R103, R106, R109). The write list is the model's field (log 5). -/
def Obligations.ShownIsWhatTicksEmit : Prop :=
  ∀ (s : State) (n : Nat), s.en = true →
    ∃ t u d g, execAll (List.replicate n .tick) s = .next t ∧ exec .tick t = .next u ∧
      (s.shown (n + 1))[n]? = some (d, g) ∧
      u.writes = [.setSegments 0x00#8, .selectDigit d, .setSegments g] ∧
      u.segOut = g ∧ u.digOut = 1#8 <<< d.toNat

/-- R120: TICK depends on nothing but EN, CC, DC, STC and the two cells it reads. The spec marks R120 as
derived. -/
def Obligations.TickReadsOnlyWhatTheRulesName : Prop :=
  ∀ s s' t t' : State, s.en = s'.en → s.cc = s'.cc → s.dc = s'.dc → s.stc = s'.stc →
    s.currentChar = s'.currentChar → s.nextChar = s'.nextChar →
    exec .tick s = .next t → exec .tick s' = .next t' →
    t.cc = t'.cc ∧ t.dc = t'.dc ∧ t.stc = t'.stc ∧ t.writes = t'.writes ∧
    (s.en = true → t.segOut = t'.segOut ∧ t.digOut = t'.digOut)

/-- STC counts executed ticks modulo 2^16 and nothing else (R25, R108, R191), while only ticks and
reads come. -/
def Obligations.StcCountsExecutedTicks : Prop :=
  ∀ (is : List Instr) (s t : State), (∀ i ∈ is, i = .tick ∨ i.isRead = true) →
    execAll is s = .next t →
    t.stc.toNat = if s.en then (s.stc.toNat + is.count .tick) % 65536 else s.stc.toNat

/-! ### Bus reads -/

/-- R130: RD_CTRL returns EN in bit 0 and 0 above; right after CTRL = 0x0007 it returns 0x0001. -/
def Obligations.RdCtrlReturnsEn : Prop :=
  encode .rdCtrl = 0x0000000#26 ∧ (∀ s : State, exec .rdCtrl s =
    .next { s with rdata := some (if s.en then 0x0001#16 else 0x0000#16) }) ∧
  ∀ s : State, ∃ t u, exec (.wrCtrl 0x0007#16) s = .next t ∧ exec .rdCtrl t = .next u ∧
    u.rdata = some 0x0001#16

/-- R132: RD_STATUS returns EN, DC and CC in bits 8, 7:5 and 4:0, with 0 above. -/
def Obligations.RdStatusReturnsCursorsAndEn : Prop :=
  encode .rdStatus = 0x0010000#26 ∧
  ∀ s : State, ∃ v : Word, exec .rdStatus s = .next { s with rdata := some v } ∧
    v.toNat = (if s.en then 256 else 0) + 32 * s.dc.toNat + s.cc.toNat ∧ s.cc.toNat ≤ 31

/-- R134: RD_STC returns STC, with the increment of an executed TICK of the same cycle in it. The cycle
is the model's step (log 1). -/
def Obligations.RdStcReturnsTheCounter : Prop :=
  (∀ s : State, exec .rdStc s = .next { s with rdata := some s.stc }) ∧
  ∀ (s : State) (rest : List Cycle),
    s.trace = Cycle.ofPorts false true (some ⟨false, 0x02#8, 0#16⟩) :: rest → s.en = true →
    ∃ t, step s = .next t ∧ t.busRdata = some (s.stc + 1#16)

/-- R136: RD_DISP returns DIG_OUT in bits 15:8 and SEG_OUT in bits 7:0, whatever the pins show; after
RESET it reads 0x0000. -/
def Obligations.RdDispReturnsTheOutputs : Prop :=
  encode .rdDisp = 0x0030000#26 ∧
  (∀ s : State, ∃ v : Word, exec .rdDisp s = .next { s with rdata := some v } ∧
    v.toNat = 256 * s.digOut.toNat + s.segOut.toNat) ∧
  ∀ s : State, ∃ t u, exec .reset s = .next t ∧ exec .rdDisp t = .next u ∧ u.rdata = some 0x0000#16

/-- R138: RD_GPROBE returns the glyph code of GP in bits 15:8 and GP in bits 7:0. -/
def Obligations.RdGprobeReturnsGlyphAndCode : Prop :=
  encode .rdGprobe = 0x0040000#26 ∧
  ∀ s : State, ∃ v : Word, exec .rdGprobe s = .next { s with rdata := some v } ∧
    v.toNat = 256 * (glyphFor s.gp).toNat + s.gp.toNat ∧
    (s.gp = 0x2E#8 → v = 0x002E#16) ∧ (s.gp = 0x00#8 → v = 0x0000#16)

/-- R140: RD_BUF returns the cell, zero-extended; 0x0000 after a CLR. -/
def Obligations.RdBufReturnsTheCell : Prop :=
  ∀ (i : CellIndex) (s : State),
    encode (.rdBuf i) = 0x0200000#26 ||| i.setWidth 26 <<< 16 ∧
    (∃ v : Word, exec (.rdBuf i) s = .next { s with rdata := some v } ∧
      v.toNat = (s.cell i.toNat).toNat) ∧
    ∀ v : Word, v.getLsbD 2 = true → ∃ t u, exec (.wrCtrl v) s = .next t ∧
      exec (.rdBuf i) t = .next u ∧ u.rdata = some 0x0000#16

/-- R142: RD_BUFTERM always returns 0x0000. -/
def Obligations.RdBuftermReturnsZero : Prop :=
  encode .rdBufterm = 0x0400000#26 ∧ ∀ s : State, exec .rdBufterm s = .next { s with rdata := some 0x0000#16 }

/-- R144: a read of a reserved address returns 0x0000 with no error. -/
def Obligations.RdRsvdReturnsZero : Prop :=
  ∀ (a : Addr) (s : State),
    exec (.rdRsvd a) s = .next { s with rdata := some 0x0000#16 } ∧
    ((0x05#8 ≤ a ∧ a ≤ 0x1F#8) ∨ 0x41#8 ≤ a → decode (busWord 0b00#2 a 0#16) = .rdRsvd a)

/-- R56: no read has a side effect, so a second read returns what the first did and any event does the
same after it but for the data on the bus; the same CTRL value written twice leaves the same state as
once; and a CTRL write with CRST resets the cursors in every state. The spec marks R56 as derived. -/
def Obligations.ReadsHaveNoSideEffect : Prop :=
  (∀ (i j : Instr) (s t : State), i.isRead = true → exec i s = .next t →
    t = { s with rdata := t.rdata } ∧ exec i t = .next t ∧
    (j.isRead = true → exec j t = exec j s)) ∧
  (∀ (v : Word) (s t : State), exec (.wrCtrl v) s = .next t → exec (.wrCtrl v) t = .next t) ∧
  (∀ (v : Word) (s t : State), v.getLsbD 1 = true → exec (.wrCtrl v) s = .next t →
    t.cc = 0#5 ∧ t.dc = 0#3)

/-! ### Bus writes -/

/-- R131: WR_CTRL in one event: EN from bit 0, the cursors from bit 1, the buffer from bit 2; every
other bit and every other field is as it was. -/
def Obligations.WrCtrlActsInOneEvent : Prop :=
  ∀ (v : Word) (s : State), ∃ t, exec (.wrCtrl v) s = .next t ∧
    t = { s with
      en := v.getLsbD 0
      cc := if v.getLsbD 1 then 0#5 else s.cc
      dc := if v.getLsbD 1 then 0#3 else s.dc
      buf := t.buf } ∧
    ∀ k, t.cell k = if v.getLsbD 2 then 0x00#8 else s.cell k

/-- R135: WR_STC sets all 16 bits of STC and nothing else; a TICK of the same cycle is not counted. The
cycle is the model's step (log 1). -/
def Obligations.WrStcSetsTheCounter : Prop :=
  (∀ (v : Word) (s : State), exec (.wrStc v) s = .next { s with stc := v }) ∧
  ∀ (v : Word) (s : State) (rest : List Cycle),
    s.trace = Cycle.ofPorts false true (some ⟨true, 0x02#8, v⟩) :: rest →
    ∃ t, step s = .next t ∧ t.stc = v

/-- R139: WR_GPROBE stores bits 7:0 in GP and changes nothing else. -/
def Obligations.WrGprobeSetsTheCode : Prop :=
  ∀ (v : Word) (s : State), encode (.wrGprobe v) = 0x1040000#26 ||| v.setWidth 26 ∧
    exec (.wrGprobe v) s = .next { s with gp := v.setWidth 8 }

/-- R141: WR_BUF stores bits 7:0 in its cell, in a canonical buffer, whatever EN is; every other cell
and every other field is as it was. The canonical form is the model's (log 3). -/
def Obligations.WrBufStoresTheCharacter : Prop :=
  ∀ (i : CellIndex) (v : Word) (s : State), ∃ t, exec (.wrBuf i v) s = .next t ∧
    (Memory.wf s.buf = true → t.cell i.toNat = v.setWidth 8 ∧ Memory.wf t.buf = true) ∧
    (∀ k, k ≠ i.toNat → t.cell k = s.cell k) ∧ t = { s with buf := t.buf }

/-- R133, R137, R143, R145: a write to a read-only register or a reserved address changes no state and
raises no error; BUF[32] stays 0x00. -/
def Obligations.IgnoredWritesChangeNothing : Prop :=
  ∀ (v : Word) (a : Addr) (s : State),
    exec (.wrStatus v) s = .next s ∧ exec (.wrDisp v) s = .next s ∧
    exec (.wrBufterm v) s = .next s ∧ s.cell 32 = 0x00#8 ∧ exec (.wrRsvd a v) s = .next s ∧
    ((0x05#8 ≤ a ∧ a ≤ 0x1F#8) ∨ 0x41#8 ≤ a → decode (busWord 0b01#2 a v) = .wrRsvd a v)

/-! ### Frames and whole-machine rules -/

/-- The frame of TICK: it writes CC, DC, STC, SEG_OUT, DIG_OUT and its write list; EN, GP, the pin
sequencer, the read data, the waiting cycles and every buffer cell stay (R101). -/
def Obligations.FrameOfTick : Prop :=
  ∀ s t : State, exec .tick s = .next t →
    t.en = s.en ∧ t.gp = s.gp ∧ t.ph = s.ph ∧ t.segPin = s.segPin ∧ t.digPin = s.digPin ∧
    t.rdata = s.rdata ∧ t.trace = s.trace ∧ t.buf = s.buf ∧ ∀ k, t.cell k = s.cell k

/-- The frame of the bus writes that change something: each leaves every field but its own, and every
cell but the one stored to, WR_CTRL's CLR apart (R131, R135, R139, R141). -/
def Obligations.FrameOfBusWrites : Prop :=
  ∀ (i : Instr) (s t : State), i.isWrite = true → exec i s = .next t →
    t.segOut = s.segOut ∧ t.digOut = s.digOut ∧ t.ph = s.ph ∧ t.segPin = s.segPin ∧
    t.digPin = s.digPin ∧ t.writes = s.writes ∧ t.rdata = s.rdata ∧ t.trace = s.trace ∧
    ((∀ v, i ≠ .wrCtrl v) → t.en = s.en ∧ t.cc = s.cc ∧ t.dc = s.dc) ∧
    ((∀ v, i ≠ .wrStc v) → t.stc = s.stc) ∧
    ((∀ v, i ≠ .wrGprobe v) → t.gp = s.gp) ∧
    (∀ k : Nat, (∀ v, i = .wrCtrl v → v.getLsbD 2 = false) →
      (∀ n v, i = .wrBuf n v → k ≠ n.toNat) → t.cell k = s.cell k)

/-- Which events can change each element (R21, R23-R29): EN by a CTRL write or RESET; the cursors by an
executed tick, CRST or RESET; STC by an executed tick, an STC write or RESET; the outputs by an executed
tick or RESET; GP by a GPROBE write or RESET; a cell by a write of it, CLR or RESET; the pins by RESET. -/
def Obligations.WritersOfEachElement : Prop :=
  ∀ (i : Instr) (s t : State), exec i s = .next t →
    (t.en ≠ s.en → (∃ v, i = .wrCtrl v) ∨ i = .reset) ∧
    (t.cc ≠ s.cc ∨ t.dc ≠ s.dc → (i = .tick ∧ s.en = true) ∨
      (∃ v, i = .wrCtrl v ∧ v.getLsbD 1 = true) ∨ i = .reset) ∧
    (t.stc ≠ s.stc → (i = .tick ∧ s.en = true) ∨ (∃ v, i = .wrStc v) ∨ i = .reset) ∧
    (t.segOut ≠ s.segOut ∨ t.digOut ≠ s.digOut → (i = .tick ∧ s.en = true) ∨ i = .reset) ∧
    (t.gp ≠ s.gp → (∃ v, i = .wrGprobe v) ∨ i = .reset) ∧
    (∀ k, t.cell k ≠ s.cell k → (∃ n v, i = .wrBuf n v ∧ n.toNat = k) ∨
      (∃ v, i = .wrCtrl v ∧ v.getLsbD 2 = true) ∨ i = .reset) ∧
    (t.ph ≠ s.ph ∨ t.segPin ≠ s.segPin ∨ t.digPin ≠ s.digPin → i = .reset)

/-- R60: after EN = 0 no tick executes, whatever comes, until a CTRL write sets EN = 1: the outputs hold
(but for a RESET), STC changes only by an STC write or a RESET, and no display write is produced. The
spec marks R60 as derived. -/
def Obligations.SuspensionStopsRendering : Prop :=
  ∀ (is : List Instr) (s m t : State), (∀ v, Instr.wrCtrl v ∈ is → v.getLsbD 0 = false) →
    execAll suspend s = .next m → execAll is m = .next t →
    t.en = false ∧
    (Instr.reset ∉ is → t.segOut = m.segOut ∧ t.digOut = m.digOut) ∧
    (Instr.reset ∉ is → (∀ v, Instr.wrStc v ∉ is) → t.stc = m.stc) ∧
    (m.writes = [] → t.writes = [])

/-! ### The host's sequences -/

/-- R161, R163: `suspend` sets EN = 0 and leaves the cursors and the buffer; `clearbuf` clears the
buffer and sets EN = 0. -/
def Obligations.SuspendAndClearbuf : Prop :=
  suspend.map encode = [0x1000000#26] ∧ clearbuf.map encode = [0x1000004#26] ∧
  ∀ s : State, execAll suspend s = .next { s with en := false } ∧
    ∃ t, execAll clearbuf s = .next t ∧ t = { s with en := false, buf := t.buf } ∧
      ∀ k, t.cell k = 0x00#8

/-- R162: `resume` sets CC = 0, DC = 0 and EN = 1 in one event, and the next executed tick renders
BUF[0] on digit 0. The spec marks R162 as derived. -/
def Obligations.ResumeStartsAtZero : Prop :=
  resume.map encode = [0x1000003#26] ∧
  ∀ s : State, ∃ t u, execAll resume s = .next t ∧
    t = { s with cc := 0#5, dc := 0#3, en := true } ∧ exec .tick t = .next u ∧
    u.digOut = 0x01#8 ∧ t.currentChar = s.cell 0

/-- R164: `loadtext` is one write of character k to BUF[k] for each k in order, none for the empty text;
it changes nothing else, and into a cleared buffer the terminator stands at index L. That a written cell
reads back rests on the buffer's canonical form, which is the model's and no rule of the spec (log 3,
DEDUCED). -/
def Obligations.LoadtextWritesTheText : Prop :=
  ∀ (txt : Text) (s : State), txt.length ≤ 32 → Memory.wf s.buf = true →
    (loadtext txt).length = txt.length ∧
    (∀ (k : Nat) (c : Byte), txt[k]? = some c →
      (loadtext txt)[k]? = some (.wrBuf (BitVec.ofNat 5 k) (c.setWidth 16))) ∧
    (∃ t, execAll (loadtext txt) s = .next t ∧ t = { s with buf := t.buf } ∧
      (∀ (k : Nat) (c : Byte), txt[k]? = some c → t.cell k = c) ∧
      ∀ k, txt.length ≤ k → t.cell k = s.cell k) ∧
    ∃ u, execAll (clearbuf ++ loadtext txt) s = .next u ∧ u.cell txt.length = 0x00#8

/-- R167, R168: after BOOT, from any state, the buffer holds the startup pattern, rendering is enabled
at CC = DC = 0, and STC is one below the threshold, so that the refresh test first passes after one
executed tick; and a host keeps its duties along it where BOOT is its next rewrite, after a RESET or
without one, suspending first where EN may be 1 (read as in log 14). -/
def Obligations.BootPreparesTheFirstRefresh : Prop :=
  ∀ (p : HostParams) (s : State), 0#16 < p.refreshThreshold →
    ∃ t u, execAll (boot p) s = .next t ∧ t.en = true ∧ t.cc = 0#5 ∧ t.dc = 0#3 ∧
      (∀ k, t.cell k = startupText.getD k 0x00#8) ∧ refreshDue p t.stc = false ∧
      exec .tick t = .next u ∧ u.stc = p.refreshThreshold ∧ refreshDue p u.stc = true ∧
      ∀ (h : HostView) (later : List Rewrite), h.rewrites = .boot :: later →
        (h.en = false → h.run p (boot p) = some ⟨true, true, none, none, later⟩) ∧
        h.run p (suspend ++ boot p) = some ⟨true, true, none, none, later⟩

/-- R169, R170, R172: after REFRESH, from any state, the buffer holds the sample's text, STC is 0 after
a good sample and RETRY_PRESET after a failed one, and rendering is enabled at CC = DC = 0; the outputs
do not change; and a host keeps its duties along it, where it has booted, the text is well-formed and the sample
is its next rewrite. The number format is a parameter. The host's texts and duties are read as in log 11 and log
14. -/
def Obligations.RefreshShowsTheSample : Prop :=
  ∀ (p : HostParams) (r : Sample) (s : State), (sampleText p r).length ≤ 32 →
    ∃ t, execAll (refresh p r) s = .next t ∧ t.en = true ∧ t.cc = 0#5 ∧ t.dc = 0#3 ∧
      (∀ k, t.cell k = (sampleText p r).getD k 0x00#8) ∧
      (∀ x y, r = .good x y → t.stc = 0x0000#16) ∧
      (∀ e, r = .failed e → t.stc = p.retryPreset) ∧
      t.segOut = s.segOut ∧ t.digOut = s.digOut ∧ t.gp = s.gp ∧
      dutiful s.en (refresh p r) = true ∧
      ∀ (h : HostView) (later : List Rewrite), wellFormedText (sampleText p r) = true →
        h.booted = true → h.rewrites = .sample r :: later →
        h.run p (refresh p r) = some ⟨true, true, none, none, later⟩

/-- R160, R173: along the events of a host that keeps the duties on EN, no event changes a cell while
EN = 1, a RESET apart; the duties of R160 together contain these; and a view of the machine that is true
stays true along a host's events that keep every duty, so that whenever EN = 1 the buffer holds a
well-formed text and nothing after it. The view after RESET is true of the reset state. What the duties
ask of a sequence is read as in log 14. -/
def Obligations.DutifulHostRewritesOnlyWhileSuspended : Prop :=
  (∀ (p : HostParams) (is : List Instr) (h g : HostView),
    h.run p is = some g → dutiful h.en is = true) ∧
  (∀ (p : HostParams) (is : List Instr) (h g : HostView) (s t : State), h.agrees s = true →
    h.run p is = some g → execAll is s = .next t → g.agrees t = true ∧
      (t.en = true → ∃ txt : Text, wellFormedText txt = true ∧
        ∀ k, t.cell k = txt.getD k 0x00#8)) ∧
  (∀ rewrites, (HostView.reset rewrites).agrees State.reset = true) ∧
  ∀ (before after : List Instr) (i : Instr) (s m n : State),
    dutiful s.en (before ++ i :: after) = true → execAll before s = .next m → m.en = true →
    i ≠ .reset → exec i m = .next n → ∀ k, n.cell k = m.cell k

/-! ### The pins -/

/-- R214: the pin sequencer at the edge of each cycle, after the cycle's events: RESET, else an executed
TICK, else the phase decides; a dropped tick does not restart it; the ghosting invariant; and the ports
as the pins XOR their polarity. The edge is the end of the model's step (log 1), which reads an executed
TICK off the write list (log 8). -/
def Obligations.PinSequencerFollowsTheEdge : Prop :=
  ∀ (s t : State) (r k : Bool) (b : Option BusAccess) (rest : List Cycle),
    s.trace = Cycle.ofPorts r k b :: rest → step s = .next t →
    (r = true → t.ph = .idle ∧ t.segPin = 0x00#8 ∧ t.digPin = 0x00#8) ∧
    (r = false → k = true → s.en = true →
      t.ph = .p1 ∧ t.segPin = 0x00#8 ∧ t.digPin = s.digPin) ∧
    (r = false → (k = false ∨ s.en = false) →
      (s.ph = .p1 → t.ph = .p2 ∧ t.digPin = t.digOut ∧ t.segPin = s.segPin) ∧
      (s.ph = .p2 → t.ph = .idle ∧ t.segPin = t.segOut ∧ t.digPin = s.digPin) ∧
      (s.ph = .idle → t.ph = .idle ∧ t.segPin = s.segPin ∧ t.digPin = s.digPin)) ∧
    (s.pinsCoherent = true → t.segPin ≠ 0x00#8 → t.segPin = t.segOut ∧ t.digPin = t.digOut) ∧
    ∀ al dl : Bool,
      t.segO ⟨al, dl, id, id⟩ = t.segPin ^^^ (if al then 0xFF#8 else 0x00#8) ∧
      t.digO ⟨al, dl, id, id⟩ = t.digPin ^^^ (if dl then 0xFF#8 else 0x00#8)

/-- R214, R215: with no tick and no reset in the two cycles after an executed tick, its glyph and digit
reach the pins: blank, then the digit, then the segments, whatever the host does meanwhile. The cycles
are the model's steps (log 1). -/
def Obligations.GlyphReachesThePins : Prop :=
  ∀ (s : State) (b0 b1 b2 : Option BusAccess) (rest : List Cycle), s.en = true →
    s.trace = Cycle.ofPorts false true b0 :: Cycle.ofPorts false false b1 ::
      Cycle.ofPorts false false b2 :: rest →
    ∃ x y z, runSteps 1 s = .next x ∧ runSteps 2 s = .next y ∧ runSteps 3 s = .next z ∧
      (x.ph, x.segPin, x.digPin) = (.p1, 0x00#8, s.digPin) ∧
      (y.ph, y.segPin, y.digPin) = (.p2, 0x00#8, s.tickDigit) ∧
      (z.ph, z.segPin, z.digPin) = (.idle, s.tickGlyph, s.tickDigit)

/-- R215: with ticks 1 or 2 cycles apart the earlier glyph never reaches the pins, though the state
changes of both ticks happen. The cycles are the model's steps (log 1). -/
def Obligations.ShortTickGapLosesTheGlyph : Prop :=
  ∀ (s : State) (rest : List Cycle), s.en = true →
    (s.trace = Cycle.ofInstr .tick :: Cycle.ofInstr .tick :: rest →
      ∃ x y, runSteps 1 s = .next x ∧ runSteps 2 s = .next y ∧
        x.segPin = 0x00#8 ∧ y.segPin = 0x00#8 ∧ y.ph = .p1 ∧ y.digPin = s.digPin ∧
        y.stc = s.stc + 2#16 ∧ y.cc = (s.ticks 2).cc ∧ y.dc = (s.ticks 2).dc ∧
        y.segOut = (s.ticks 2).segOut ∧ y.digOut = (s.ticks 2).digOut) ∧
    (s.trace = Cycle.ofInstr .tick :: Cycle.idle :: Cycle.ofInstr .tick :: rest →
      ∃ x y z, runSteps 1 s = .next x ∧ runSteps 2 s = .next y ∧ runSteps 3 s = .next z ∧
        x.segPin = 0x00#8 ∧ y.segPin = 0x00#8 ∧ z.segPin = 0x00#8 ∧ z.ph = .p1 ∧
        z.stc = s.stc + 2#16 ∧ z.cc = (s.ticks 2).cc ∧ z.dc = (s.ticks 2).dc ∧
        z.segOut = (s.ticks 2).segOut ∧ z.digOut = (s.ticks 2).digOut)

/-- R216, R195: while EN = 0 and the pins are at rest, the display is frozen: whatever cycles without a
reset and without a CTRL write of EN = 1 come, the pins and the output registers hold. The cycles are
the model's steps (log 1). -/
def Obligations.SuspendedDisplayIsFrozen : Prop :=
  ∀ (n : Nat) (s t : State), s.en = false → s.ph = .idle →
    (∀ c ∈ s.trace, c.rst = none ∧
      ∀ x, c.bus = some x → ∀ v, decode x.word = .wrCtrl v → v.getLsbD 0 = false) →
    runSteps n s = .next t →
    t.en = false ∧ t.ph = .idle ∧ t.segPin = s.segPin ∧ t.digPin = s.digPin ∧
      t.segOut = s.segOut ∧ t.digOut = s.digOut
end

