-- ==== Sys2Proof/Laws/State.lean ====
section
/-! SUPPORT. What each named update of the state does to each field: one lemma a field an update, true by
definition, so that no later proof unfolds a record update. -/

namespace Sys2Proof.Machine

/-! ### writeCell -/

@[simp] theorem State.writeCell_buf (i : CellIndex) (c : Byte) (s : State) : (s.writeCell i c).buf = Memory.write s.buf i.toNat c := rfl
@[simp] theorem State.writeCell_cc (i : CellIndex) (c : Byte) (s : State) : (s.writeCell i c).cc = s.cc := rfl
@[simp] theorem State.writeCell_dc (i : CellIndex) (c : Byte) (s : State) : (s.writeCell i c).dc = s.dc := rfl
@[simp] theorem State.writeCell_stc (i : CellIndex) (c : Byte) (s : State) : (s.writeCell i c).stc = s.stc := rfl
@[simp] theorem State.writeCell_en (i : CellIndex) (c : Byte) (s : State) : (s.writeCell i c).en = s.en := rfl
@[simp] theorem State.writeCell_segOut (i : CellIndex) (c : Byte) (s : State) : (s.writeCell i c).segOut = s.segOut := rfl
@[simp] theorem State.writeCell_digOut (i : CellIndex) (c : Byte) (s : State) : (s.writeCell i c).digOut = s.digOut := rfl
@[simp] theorem State.writeCell_gp (i : CellIndex) (c : Byte) (s : State) : (s.writeCell i c).gp = s.gp := rfl
@[simp] theorem State.writeCell_ph (i : CellIndex) (c : Byte) (s : State) : (s.writeCell i c).ph = s.ph := rfl
@[simp] theorem State.writeCell_segPin (i : CellIndex) (c : Byte) (s : State) : (s.writeCell i c).segPin = s.segPin := rfl
@[simp] theorem State.writeCell_digPin (i : CellIndex) (c : Byte) (s : State) : (s.writeCell i c).digPin = s.digPin := rfl
@[simp] theorem State.writeCell_writes (i : CellIndex) (c : Byte) (s : State) : (s.writeCell i c).writes = s.writes := rfl
@[simp] theorem State.writeCell_rdata (i : CellIndex) (c : Byte) (s : State) : (s.writeCell i c).rdata = s.rdata := rfl
@[simp] theorem State.writeCell_trace (i : CellIndex) (c : Byte) (s : State) : (s.writeCell i c).trace = s.trace := rfl

/-! ### clearBuffer -/

@[simp] theorem State.clearBuffer_buf (s : State) : s.clearBuffer.buf = [] := rfl
@[simp] theorem State.clearBuffer_cc (s : State) : s.clearBuffer.cc = s.cc := rfl
@[simp] theorem State.clearBuffer_dc (s : State) : s.clearBuffer.dc = s.dc := rfl
@[simp] theorem State.clearBuffer_stc (s : State) : s.clearBuffer.stc = s.stc := rfl
@[simp] theorem State.clearBuffer_en (s : State) : s.clearBuffer.en = s.en := rfl
@[simp] theorem State.clearBuffer_segOut (s : State) : s.clearBuffer.segOut = s.segOut := rfl
@[simp] theorem State.clearBuffer_digOut (s : State) : s.clearBuffer.digOut = s.digOut := rfl
@[simp] theorem State.clearBuffer_gp (s : State) : s.clearBuffer.gp = s.gp := rfl
@[simp] theorem State.clearBuffer_ph (s : State) : s.clearBuffer.ph = s.ph := rfl
@[simp] theorem State.clearBuffer_segPin (s : State) : s.clearBuffer.segPin = s.segPin := rfl
@[simp] theorem State.clearBuffer_digPin (s : State) : s.clearBuffer.digPin = s.digPin := rfl
@[simp] theorem State.clearBuffer_writes (s : State) : s.clearBuffer.writes = s.writes := rfl
@[simp] theorem State.clearBuffer_rdata (s : State) : s.clearBuffer.rdata = s.rdata := rfl
@[simp] theorem State.clearBuffer_trace (s : State) : s.clearBuffer.trace = s.trace := rfl

/-! ### resetCursors -/

@[simp] theorem State.resetCursors_buf (s : State) : s.resetCursors.buf = s.buf := rfl
@[simp] theorem State.resetCursors_cc (s : State) : s.resetCursors.cc = 0#5 := rfl
@[simp] theorem State.resetCursors_dc (s : State) : s.resetCursors.dc = 0#3 := rfl
@[simp] theorem State.resetCursors_stc (s : State) : s.resetCursors.stc = s.stc := rfl
@[simp] theorem State.resetCursors_en (s : State) : s.resetCursors.en = s.en := rfl
@[simp] theorem State.resetCursors_segOut (s : State) : s.resetCursors.segOut = s.segOut := rfl
@[simp] theorem State.resetCursors_digOut (s : State) : s.resetCursors.digOut = s.digOut := rfl
@[simp] theorem State.resetCursors_gp (s : State) : s.resetCursors.gp = s.gp := rfl
@[simp] theorem State.resetCursors_ph (s : State) : s.resetCursors.ph = s.ph := rfl
@[simp] theorem State.resetCursors_segPin (s : State) : s.resetCursors.segPin = s.segPin := rfl
@[simp] theorem State.resetCursors_digPin (s : State) : s.resetCursors.digPin = s.digPin := rfl
@[simp] theorem State.resetCursors_writes (s : State) : s.resetCursors.writes = s.writes := rfl
@[simp] theorem State.resetCursors_rdata (s : State) : s.resetCursors.rdata = s.rdata := rfl
@[simp] theorem State.resetCursors_trace (s : State) : s.resetCursors.trace = s.trace := rfl

@[simp] theorem State.resetCursors_cell (s : State) (k : Nat) : s.resetCursors.cell k = s.cell k := rfl

/-! ### setEn -/

@[simp] theorem State.setEn_buf (b : Bool) (s : State) : (s.setEn b).buf = s.buf := rfl
@[simp] theorem State.setEn_cc (b : Bool) (s : State) : (s.setEn b).cc = s.cc := rfl
@[simp] theorem State.setEn_dc (b : Bool) (s : State) : (s.setEn b).dc = s.dc := rfl
@[simp] theorem State.setEn_stc (b : Bool) (s : State) : (s.setEn b).stc = s.stc := rfl
@[simp] theorem State.setEn_en (b : Bool) (s : State) : (s.setEn b).en = b := rfl
@[simp] theorem State.setEn_segOut (b : Bool) (s : State) : (s.setEn b).segOut = s.segOut := rfl
@[simp] theorem State.setEn_digOut (b : Bool) (s : State) : (s.setEn b).digOut = s.digOut := rfl
@[simp] theorem State.setEn_gp (b : Bool) (s : State) : (s.setEn b).gp = s.gp := rfl
@[simp] theorem State.setEn_ph (b : Bool) (s : State) : (s.setEn b).ph = s.ph := rfl
@[simp] theorem State.setEn_segPin (b : Bool) (s : State) : (s.setEn b).segPin = s.segPin := rfl
@[simp] theorem State.setEn_digPin (b : Bool) (s : State) : (s.setEn b).digPin = s.digPin := rfl
@[simp] theorem State.setEn_writes (b : Bool) (s : State) : (s.setEn b).writes = s.writes := rfl
@[simp] theorem State.setEn_rdata (b : Bool) (s : State) : (s.setEn b).rdata = s.rdata := rfl
@[simp] theorem State.setEn_trace (b : Bool) (s : State) : (s.setEn b).trace = s.trace := rfl

@[simp] theorem State.setEn_cell (b : Bool) (s : State) (k : Nat) : (s.setEn b).cell k = s.cell k := rfl

/-! ### setStc -/

@[simp] theorem State.setStc_buf (v : Word) (s : State) : (s.setStc v).buf = s.buf := rfl
@[simp] theorem State.setStc_cc (v : Word) (s : State) : (s.setStc v).cc = s.cc := rfl
@[simp] theorem State.setStc_dc (v : Word) (s : State) : (s.setStc v).dc = s.dc := rfl
@[simp] theorem State.setStc_stc (v : Word) (s : State) : (s.setStc v).stc = v := rfl
@[simp] theorem State.setStc_en (v : Word) (s : State) : (s.setStc v).en = s.en := rfl
@[simp] theorem State.setStc_segOut (v : Word) (s : State) : (s.setStc v).segOut = s.segOut := rfl
@[simp] theorem State.setStc_digOut (v : Word) (s : State) : (s.setStc v).digOut = s.digOut := rfl
@[simp] theorem State.setStc_gp (v : Word) (s : State) : (s.setStc v).gp = s.gp := rfl
@[simp] theorem State.setStc_ph (v : Word) (s : State) : (s.setStc v).ph = s.ph := rfl
@[simp] theorem State.setStc_segPin (v : Word) (s : State) : (s.setStc v).segPin = s.segPin := rfl
@[simp] theorem State.setStc_digPin (v : Word) (s : State) : (s.setStc v).digPin = s.digPin := rfl
@[simp] theorem State.setStc_writes (v : Word) (s : State) : (s.setStc v).writes = s.writes := rfl
@[simp] theorem State.setStc_rdata (v : Word) (s : State) : (s.setStc v).rdata = s.rdata := rfl
@[simp] theorem State.setStc_trace (v : Word) (s : State) : (s.setStc v).trace = s.trace := rfl

@[simp] theorem State.setStc_cell (v : Word) (s : State) (k : Nat) : (s.setStc v).cell k = s.cell k := rfl

/-! ### setGp -/

@[simp] theorem State.setGp_buf (c : Byte) (s : State) : (s.setGp c).buf = s.buf := rfl
@[simp] theorem State.setGp_cc (c : Byte) (s : State) : (s.setGp c).cc = s.cc := rfl
@[simp] theorem State.setGp_dc (c : Byte) (s : State) : (s.setGp c).dc = s.dc := rfl
@[simp] theorem State.setGp_stc (c : Byte) (s : State) : (s.setGp c).stc = s.stc := rfl
@[simp] theorem State.setGp_en (c : Byte) (s : State) : (s.setGp c).en = s.en := rfl
@[simp] theorem State.setGp_segOut (c : Byte) (s : State) : (s.setGp c).segOut = s.segOut := rfl
@[simp] theorem State.setGp_digOut (c : Byte) (s : State) : (s.setGp c).digOut = s.digOut := rfl
@[simp] theorem State.setGp_gp (c : Byte) (s : State) : (s.setGp c).gp = c := rfl
@[simp] theorem State.setGp_ph (c : Byte) (s : State) : (s.setGp c).ph = s.ph := rfl
@[simp] theorem State.setGp_segPin (c : Byte) (s : State) : (s.setGp c).segPin = s.segPin := rfl
@[simp] theorem State.setGp_digPin (c : Byte) (s : State) : (s.setGp c).digPin = s.digPin := rfl
@[simp] theorem State.setGp_writes (c : Byte) (s : State) : (s.setGp c).writes = s.writes := rfl
@[simp] theorem State.setGp_rdata (c : Byte) (s : State) : (s.setGp c).rdata = s.rdata := rfl
@[simp] theorem State.setGp_trace (c : Byte) (s : State) : (s.setGp c).trace = s.trace := rfl

@[simp] theorem State.setGp_cell (c : Byte) (s : State) (k : Nat) : (s.setGp c).cell k = s.cell k := rfl

/-! ### setCursors -/

@[simp] theorem State.setCursors_buf (c : BitVec 5) (d : BitVec 3) (s : State) : (s.setCursors c d).buf = s.buf := rfl
@[simp] theorem State.setCursors_cc (c : BitVec 5) (d : BitVec 3) (s : State) : (s.setCursors c d).cc = c := rfl
@[simp] theorem State.setCursors_dc (c : BitVec 5) (d : BitVec 3) (s : State) : (s.setCursors c d).dc = d := rfl
@[simp] theorem State.setCursors_stc (c : BitVec 5) (d : BitVec 3) (s : State) : (s.setCursors c d).stc = s.stc := rfl
@[simp] theorem State.setCursors_en (c : BitVec 5) (d : BitVec 3) (s : State) : (s.setCursors c d).en = s.en := rfl
@[simp] theorem State.setCursors_segOut (c : BitVec 5) (d : BitVec 3) (s : State) : (s.setCursors c d).segOut = s.segOut := rfl
@[simp] theorem State.setCursors_digOut (c : BitVec 5) (d : BitVec 3) (s : State) : (s.setCursors c d).digOut = s.digOut := rfl
@[simp] theorem State.setCursors_gp (c : BitVec 5) (d : BitVec 3) (s : State) : (s.setCursors c d).gp = s.gp := rfl
@[simp] theorem State.setCursors_ph (c : BitVec 5) (d : BitVec 3) (s : State) : (s.setCursors c d).ph = s.ph := rfl
@[simp] theorem State.setCursors_segPin (c : BitVec 5) (d : BitVec 3) (s : State) : (s.setCursors c d).segPin = s.segPin := rfl
@[simp] theorem State.setCursors_digPin (c : BitVec 5) (d : BitVec 3) (s : State) : (s.setCursors c d).digPin = s.digPin := rfl
@[simp] theorem State.setCursors_writes (c : BitVec 5) (d : BitVec 3) (s : State) : (s.setCursors c d).writes = s.writes := rfl
@[simp] theorem State.setCursors_rdata (c : BitVec 5) (d : BitVec 3) (s : State) : (s.setCursors c d).rdata = s.rdata := rfl
@[simp] theorem State.setCursors_trace (c : BitVec 5) (d : BitVec 3) (s : State) : (s.setCursors c d).trace = s.trace := rfl

@[simp] theorem State.setCursors_cell (c : BitVec 5) (d : BitVec 3) (s : State) (k : Nat) : (s.setCursors c d).cell k = s.cell k := rfl

/-! ### setOutputs -/

@[simp] theorem State.setOutputs_buf (g o : Byte) (s : State) : (s.setOutputs g o).buf = s.buf := rfl
@[simp] theorem State.setOutputs_cc (g o : Byte) (s : State) : (s.setOutputs g o).cc = s.cc := rfl
@[simp] theorem State.setOutputs_dc (g o : Byte) (s : State) : (s.setOutputs g o).dc = s.dc := rfl
@[simp] theorem State.setOutputs_stc (g o : Byte) (s : State) : (s.setOutputs g o).stc = s.stc := rfl
@[simp] theorem State.setOutputs_en (g o : Byte) (s : State) : (s.setOutputs g o).en = s.en := rfl
@[simp] theorem State.setOutputs_segOut (g o : Byte) (s : State) : (s.setOutputs g o).segOut = g := rfl
@[simp] theorem State.setOutputs_digOut (g o : Byte) (s : State) : (s.setOutputs g o).digOut = o := rfl
@[simp] theorem State.setOutputs_gp (g o : Byte) (s : State) : (s.setOutputs g o).gp = s.gp := rfl
@[simp] theorem State.setOutputs_ph (g o : Byte) (s : State) : (s.setOutputs g o).ph = s.ph := rfl
@[simp] theorem State.setOutputs_segPin (g o : Byte) (s : State) : (s.setOutputs g o).segPin = s.segPin := rfl
@[simp] theorem State.setOutputs_digPin (g o : Byte) (s : State) : (s.setOutputs g o).digPin = s.digPin := rfl
@[simp] theorem State.setOutputs_writes (g o : Byte) (s : State) : (s.setOutputs g o).writes = s.writes := rfl
@[simp] theorem State.setOutputs_rdata (g o : Byte) (s : State) : (s.setOutputs g o).rdata = s.rdata := rfl
@[simp] theorem State.setOutputs_trace (g o : Byte) (s : State) : (s.setOutputs g o).trace = s.trace := rfl

@[simp] theorem State.setOutputs_cell (g o : Byte) (s : State) (k : Nat) : (s.setOutputs g o).cell k = s.cell k := rfl

/-! ### emit -/

@[simp] theorem State.emit_buf (w : List DisplayWrite) (s : State) : (s.emit w).buf = s.buf := rfl
@[simp] theorem State.emit_cc (w : List DisplayWrite) (s : State) : (s.emit w).cc = s.cc := rfl
@[simp] theorem State.emit_dc (w : List DisplayWrite) (s : State) : (s.emit w).dc = s.dc := rfl
@[simp] theorem State.emit_stc (w : List DisplayWrite) (s : State) : (s.emit w).stc = s.stc := rfl
@[simp] theorem State.emit_en (w : List DisplayWrite) (s : State) : (s.emit w).en = s.en := rfl
@[simp] theorem State.emit_segOut (w : List DisplayWrite) (s : State) : (s.emit w).segOut = s.segOut := rfl
@[simp] theorem State.emit_digOut (w : List DisplayWrite) (s : State) : (s.emit w).digOut = s.digOut := rfl
@[simp] theorem State.emit_gp (w : List DisplayWrite) (s : State) : (s.emit w).gp = s.gp := rfl
@[simp] theorem State.emit_ph (w : List DisplayWrite) (s : State) : (s.emit w).ph = s.ph := rfl
@[simp] theorem State.emit_segPin (w : List DisplayWrite) (s : State) : (s.emit w).segPin = s.segPin := rfl
@[simp] theorem State.emit_digPin (w : List DisplayWrite) (s : State) : (s.emit w).digPin = s.digPin := rfl
@[simp] theorem State.emit_writes (w : List DisplayWrite) (s : State) : (s.emit w).writes = w := rfl
@[simp] theorem State.emit_rdata (w : List DisplayWrite) (s : State) : (s.emit w).rdata = s.rdata := rfl
@[simp] theorem State.emit_trace (w : List DisplayWrite) (s : State) : (s.emit w).trace = s.trace := rfl

@[simp] theorem State.emit_cell (w : List DisplayWrite) (s : State) (k : Nat) : (s.emit w).cell k = s.cell k := rfl

/-! ### returnData -/

@[simp] theorem State.returnData_buf (v : Word) (s : State) : (s.returnData v).buf = s.buf := rfl
@[simp] theorem State.returnData_cc (v : Word) (s : State) : (s.returnData v).cc = s.cc := rfl
@[simp] theorem State.returnData_dc (v : Word) (s : State) : (s.returnData v).dc = s.dc := rfl
@[simp] theorem State.returnData_stc (v : Word) (s : State) : (s.returnData v).stc = s.stc := rfl
@[simp] theorem State.returnData_en (v : Word) (s : State) : (s.returnData v).en = s.en := rfl
@[simp] theorem State.returnData_segOut (v : Word) (s : State) : (s.returnData v).segOut = s.segOut := rfl
@[simp] theorem State.returnData_digOut (v : Word) (s : State) : (s.returnData v).digOut = s.digOut := rfl
@[simp] theorem State.returnData_gp (v : Word) (s : State) : (s.returnData v).gp = s.gp := rfl
@[simp] theorem State.returnData_ph (v : Word) (s : State) : (s.returnData v).ph = s.ph := rfl
@[simp] theorem State.returnData_segPin (v : Word) (s : State) : (s.returnData v).segPin = s.segPin := rfl
@[simp] theorem State.returnData_digPin (v : Word) (s : State) : (s.returnData v).digPin = s.digPin := rfl
@[simp] theorem State.returnData_writes (v : Word) (s : State) : (s.returnData v).writes = s.writes := rfl
@[simp] theorem State.returnData_rdata (v : Word) (s : State) : (s.returnData v).rdata = some v := rfl
@[simp] theorem State.returnData_trace (v : Word) (s : State) : (s.returnData v).trace = s.trace := rfl

@[simp] theorem State.returnData_cell (v : Word) (s : State) (k : Nat) : (s.returnData v).cell k = s.cell k := rfl

/-! ### setPins -/

@[simp] theorem State.setPins_buf (p : Phase) (g o : Byte) (s : State) : (s.setPins p g o).buf = s.buf := rfl
@[simp] theorem State.setPins_cc (p : Phase) (g o : Byte) (s : State) : (s.setPins p g o).cc = s.cc := rfl
@[simp] theorem State.setPins_dc (p : Phase) (g o : Byte) (s : State) : (s.setPins p g o).dc = s.dc := rfl
@[simp] theorem State.setPins_stc (p : Phase) (g o : Byte) (s : State) : (s.setPins p g o).stc = s.stc := rfl
@[simp] theorem State.setPins_en (p : Phase) (g o : Byte) (s : State) : (s.setPins p g o).en = s.en := rfl
@[simp] theorem State.setPins_segOut (p : Phase) (g o : Byte) (s : State) : (s.setPins p g o).segOut = s.segOut := rfl
@[simp] theorem State.setPins_digOut (p : Phase) (g o : Byte) (s : State) : (s.setPins p g o).digOut = s.digOut := rfl
@[simp] theorem State.setPins_gp (p : Phase) (g o : Byte) (s : State) : (s.setPins p g o).gp = s.gp := rfl
@[simp] theorem State.setPins_ph (p : Phase) (g o : Byte) (s : State) : (s.setPins p g o).ph = p := rfl
@[simp] theorem State.setPins_segPin (p : Phase) (g o : Byte) (s : State) : (s.setPins p g o).segPin = g := rfl
@[simp] theorem State.setPins_digPin (p : Phase) (g o : Byte) (s : State) : (s.setPins p g o).digPin = o := rfl
@[simp] theorem State.setPins_writes (p : Phase) (g o : Byte) (s : State) : (s.setPins p g o).writes = s.writes := rfl
@[simp] theorem State.setPins_rdata (p : Phase) (g o : Byte) (s : State) : (s.setPins p g o).rdata = s.rdata := rfl
@[simp] theorem State.setPins_trace (p : Phase) (g o : Byte) (s : State) : (s.setPins p g o).trace = s.trace := rfl

@[simp] theorem State.setPins_cell (p : Phase) (g o : Byte) (s : State) (k : Nat) : (s.setPins p g o).cell k = s.cell k := rfl

/-! ### beginCycle -/

@[simp] theorem State.beginCycle_buf (rest : List Cycle) (s : State) : (s.beginCycle rest).buf = s.buf := rfl
@[simp] theorem State.beginCycle_cc (rest : List Cycle) (s : State) : (s.beginCycle rest).cc = s.cc := rfl
@[simp] theorem State.beginCycle_dc (rest : List Cycle) (s : State) : (s.beginCycle rest).dc = s.dc := rfl
@[simp] theorem State.beginCycle_stc (rest : List Cycle) (s : State) : (s.beginCycle rest).stc = s.stc := rfl
@[simp] theorem State.beginCycle_en (rest : List Cycle) (s : State) : (s.beginCycle rest).en = s.en := rfl
@[simp] theorem State.beginCycle_segOut (rest : List Cycle) (s : State) : (s.beginCycle rest).segOut = s.segOut := rfl
@[simp] theorem State.beginCycle_digOut (rest : List Cycle) (s : State) : (s.beginCycle rest).digOut = s.digOut := rfl
@[simp] theorem State.beginCycle_gp (rest : List Cycle) (s : State) : (s.beginCycle rest).gp = s.gp := rfl
@[simp] theorem State.beginCycle_ph (rest : List Cycle) (s : State) : (s.beginCycle rest).ph = s.ph := rfl
@[simp] theorem State.beginCycle_segPin (rest : List Cycle) (s : State) : (s.beginCycle rest).segPin = s.segPin := rfl
@[simp] theorem State.beginCycle_digPin (rest : List Cycle) (s : State) : (s.beginCycle rest).digPin = s.digPin := rfl
@[simp] theorem State.beginCycle_writes (rest : List Cycle) (s : State) : (s.beginCycle rest).writes = [] := rfl
@[simp] theorem State.beginCycle_rdata (rest : List Cycle) (s : State) : (s.beginCycle rest).rdata = none := rfl
@[simp] theorem State.beginCycle_trace (rest : List Cycle) (s : State) : (s.beginCycle rest).trace = rest := rfl

@[simp] theorem State.beginCycle_cell (rest : List Cycle) (s : State) (k : Nat) : (s.beginCycle rest).cell k = s.cell k := rfl

/-! ### resetAll -/

@[simp] theorem State.resetAll_buf (s : State) : s.resetAll.buf = State.reset.buf := rfl
@[simp] theorem State.resetAll_cc (s : State) : s.resetAll.cc = State.reset.cc := rfl
@[simp] theorem State.resetAll_dc (s : State) : s.resetAll.dc = State.reset.dc := rfl
@[simp] theorem State.resetAll_stc (s : State) : s.resetAll.stc = State.reset.stc := rfl
@[simp] theorem State.resetAll_en (s : State) : s.resetAll.en = State.reset.en := rfl
@[simp] theorem State.resetAll_segOut (s : State) : s.resetAll.segOut = State.reset.segOut := rfl
@[simp] theorem State.resetAll_digOut (s : State) : s.resetAll.digOut = State.reset.digOut := rfl
@[simp] theorem State.resetAll_gp (s : State) : s.resetAll.gp = State.reset.gp := rfl
@[simp] theorem State.resetAll_ph (s : State) : s.resetAll.ph = State.reset.ph := rfl
@[simp] theorem State.resetAll_segPin (s : State) : s.resetAll.segPin = State.reset.segPin := rfl
@[simp] theorem State.resetAll_digPin (s : State) : s.resetAll.digPin = State.reset.digPin := rfl
@[simp] theorem State.resetAll_writes (s : State) : s.resetAll.writes = State.reset.writes := rfl
@[simp] theorem State.resetAll_rdata (s : State) : s.resetAll.rdata = State.reset.rdata := rfl
@[simp] theorem State.resetAll_trace (s : State) : s.resetAll.trace = s.trace := rfl

/-! ### renderTick and dropTick -/

@[simp] theorem State.renderTick_buf (s : State) : s.renderTick.buf = s.buf := rfl
@[simp] theorem State.renderTick_cc (s : State) : s.renderTick.cc = s.nextCc := rfl
@[simp] theorem State.renderTick_dc (s : State) : s.renderTick.dc = s.nextDc := rfl
@[simp] theorem State.renderTick_stc (s : State) : s.renderTick.stc = s.stc + 1#16 := rfl
@[simp] theorem State.renderTick_en (s : State) : s.renderTick.en = s.en := rfl
@[simp] theorem State.renderTick_segOut (s : State) : s.renderTick.segOut = s.tickGlyph := rfl
@[simp] theorem State.renderTick_digOut (s : State) : s.renderTick.digOut = s.tickDigit := rfl
@[simp] theorem State.renderTick_gp (s : State) : s.renderTick.gp = s.gp := rfl
@[simp] theorem State.renderTick_ph (s : State) : s.renderTick.ph = s.ph := rfl
@[simp] theorem State.renderTick_segPin (s : State) : s.renderTick.segPin = s.segPin := rfl
@[simp] theorem State.renderTick_digPin (s : State) : s.renderTick.digPin = s.digPin := rfl
@[simp] theorem State.renderTick_writes (s : State) : s.renderTick.writes = s.tickWrites := rfl
@[simp] theorem State.renderTick_rdata (s : State) : s.renderTick.rdata = s.rdata := rfl
@[simp] theorem State.renderTick_trace (s : State) : s.renderTick.trace = s.trace := rfl

@[simp] theorem State.renderTick_cell (s : State) (k : Nat) : s.renderTick.cell k = s.cell k := rfl

@[simp] theorem State.dropTick_buf (s : State) : s.dropTick.buf = s.buf := rfl
@[simp] theorem State.dropTick_cc (s : State) : s.dropTick.cc = s.cc := rfl
@[simp] theorem State.dropTick_dc (s : State) : s.dropTick.dc = s.dc := rfl
@[simp] theorem State.dropTick_stc (s : State) : s.dropTick.stc = s.stc := rfl
@[simp] theorem State.dropTick_en (s : State) : s.dropTick.en = s.en := rfl
@[simp] theorem State.dropTick_segOut (s : State) : s.dropTick.segOut = s.segOut := rfl
@[simp] theorem State.dropTick_digOut (s : State) : s.dropTick.digOut = s.digOut := rfl
@[simp] theorem State.dropTick_gp (s : State) : s.dropTick.gp = s.gp := rfl
@[simp] theorem State.dropTick_ph (s : State) : s.dropTick.ph = s.ph := rfl
@[simp] theorem State.dropTick_segPin (s : State) : s.dropTick.segPin = s.segPin := rfl
@[simp] theorem State.dropTick_digPin (s : State) : s.dropTick.digPin = s.digPin := rfl
@[simp] theorem State.dropTick_writes (s : State) : s.dropTick.writes = [] := rfl
@[simp] theorem State.dropTick_rdata (s : State) : s.dropTick.rdata = s.rdata := rfl
@[simp] theorem State.dropTick_trace (s : State) : s.dropTick.trace = s.trace := rfl

@[simp] theorem State.dropTick_cell (s : State) (k : Nat) : s.dropTick.cell k = s.cell k := rfl

/-! ### writeCtrl (R131) -/

@[simp] theorem State.writeCtrl_buf (v : Word) (s : State) : (s.writeCtrl v).buf = (if ctrlClr v then [] else s.buf) := by
  cases h : ctrlCrst v <;> cases h' : ctrlClr v <;> simp [State.writeCtrl, h, h']
@[simp] theorem State.writeCtrl_cc (v : Word) (s : State) : (s.writeCtrl v).cc = (if ctrlCrst v then 0#5 else s.cc) := by
  cases h : ctrlCrst v <;> cases h' : ctrlClr v <;> simp [State.writeCtrl, h, h']
@[simp] theorem State.writeCtrl_dc (v : Word) (s : State) : (s.writeCtrl v).dc = (if ctrlCrst v then 0#3 else s.dc) := by
  cases h : ctrlCrst v <;> cases h' : ctrlClr v <;> simp [State.writeCtrl, h, h']
@[simp] theorem State.writeCtrl_stc (v : Word) (s : State) : (s.writeCtrl v).stc = s.stc := by
  cases h : ctrlCrst v <;> cases h' : ctrlClr v <;> simp [State.writeCtrl, h, h']
@[simp] theorem State.writeCtrl_en (v : Word) (s : State) : (s.writeCtrl v).en = ctrlEn v := by
  cases h : ctrlCrst v <;> cases h' : ctrlClr v <;> simp [State.writeCtrl, h, h']
@[simp] theorem State.writeCtrl_segOut (v : Word) (s : State) : (s.writeCtrl v).segOut = s.segOut := by
  cases h : ctrlCrst v <;> cases h' : ctrlClr v <;> simp [State.writeCtrl, h, h']
@[simp] theorem State.writeCtrl_digOut (v : Word) (s : State) : (s.writeCtrl v).digOut = s.digOut := by
  cases h : ctrlCrst v <;> cases h' : ctrlClr v <;> simp [State.writeCtrl, h, h']
@[simp] theorem State.writeCtrl_gp (v : Word) (s : State) : (s.writeCtrl v).gp = s.gp := by
  cases h : ctrlCrst v <;> cases h' : ctrlClr v <;> simp [State.writeCtrl, h, h']
@[simp] theorem State.writeCtrl_ph (v : Word) (s : State) : (s.writeCtrl v).ph = s.ph := by
  cases h : ctrlCrst v <;> cases h' : ctrlClr v <;> simp [State.writeCtrl, h, h']
@[simp] theorem State.writeCtrl_segPin (v : Word) (s : State) : (s.writeCtrl v).segPin = s.segPin := by
  cases h : ctrlCrst v <;> cases h' : ctrlClr v <;> simp [State.writeCtrl, h, h']
@[simp] theorem State.writeCtrl_digPin (v : Word) (s : State) : (s.writeCtrl v).digPin = s.digPin := by
  cases h : ctrlCrst v <;> cases h' : ctrlClr v <;> simp [State.writeCtrl, h, h']
@[simp] theorem State.writeCtrl_writes (v : Word) (s : State) : (s.writeCtrl v).writes = s.writes := by
  cases h : ctrlCrst v <;> cases h' : ctrlClr v <;> simp [State.writeCtrl, h, h']
@[simp] theorem State.writeCtrl_rdata (v : Word) (s : State) : (s.writeCtrl v).rdata = s.rdata := by
  cases h : ctrlCrst v <;> cases h' : ctrlClr v <;> simp [State.writeCtrl, h, h']
@[simp] theorem State.writeCtrl_trace (v : Word) (s : State) : (s.writeCtrl v).trace = s.trace := by
  cases h : ctrlCrst v <;> cases h' : ctrlClr v <;> simp [State.writeCtrl, h, h']

/-! ### State.reset (R41) -/

@[simp] theorem State.reset_buf : State.reset.buf = [] := rfl
@[simp] theorem State.reset_cc : State.reset.cc = 0#5 := rfl
@[simp] theorem State.reset_dc : State.reset.dc = 0#3 := rfl
@[simp] theorem State.reset_stc : State.reset.stc = 0#16 := rfl
@[simp] theorem State.reset_en : State.reset.en = false := rfl
@[simp] theorem State.reset_segOut : State.reset.segOut = 0#8 := rfl
@[simp] theorem State.reset_digOut : State.reset.digOut = 0#8 := rfl
@[simp] theorem State.reset_gp : State.reset.gp = 0#8 := rfl
@[simp] theorem State.reset_ph : State.reset.ph = .idle := rfl
@[simp] theorem State.reset_segPin : State.reset.segPin = 0#8 := rfl
@[simp] theorem State.reset_digPin : State.reset.digPin = 0#8 := rfl
@[simp] theorem State.reset_writes : State.reset.writes = [] := rfl
@[simp] theorem State.reset_rdata : State.reset.rdata = none := rfl
@[simp] theorem State.reset_trace : State.reset.trace = [] := rfl

end Sys2Proof.Machine
end

