-- ==== Sys2Proof/Laws/Memory.lean ====
section
/-! SUPPORT. The Render Buffer as memory: read after write, canonical form, and what the buffer
operations do to a cell. -/

namespace Sys2Proof.Machine

/-! ### Canonical form -/

theorem Memory.wfFrom_mono {lo lo' : Nat} (h : lo' ≤ lo) :
    ∀ {m : Memory}, Memory.wfFrom lo m = true → Memory.wfFrom lo' m = true
  | [], _ => rfl
  | (k, b) :: rest, hw => by
    simp only [Memory.wfFrom, Bool.and_eq_true, decide_eq_true_eq] at hw ⊢
    exact ⟨⟨⟨by omega, hw.1.1.2⟩, hw.1.2⟩, hw.2⟩

theorem Memory.write_wfFrom {a : Nat} (v : Byte) (ha : a < 32) :
    ∀ {lo : Nat} {m : Memory}, lo ≤ a → Memory.wfFrom lo m = true →
      Memory.wfFrom lo (Memory.write m a v) = true
  | lo, [], hl, _ => by
    unfold Memory.write
    split
    · rfl
    · simp [Memory.wfFrom, *]
  | lo, (k, b) :: rest, hl, hw => by
    have hw' := hw
    simp only [Memory.wfFrom, Bool.and_eq_true, decide_eq_true_eq] at hw'
    obtain ⟨⟨⟨h1, h2⟩, h3⟩, h4⟩ := hw'
    unfold Memory.write
    split
    · split
      · exact hw
      · rename_i hak hv
        simp only [Memory.wfFrom, Bool.and_eq_true, decide_eq_true_eq]
        exact ⟨⟨⟨hl, ha⟩, by simpa using hv⟩, ⟨⟨by omega, h2⟩, h3⟩, h4⟩
    · split
      · subst_vars
        split
        · exact Memory.wfFrom_mono (by omega) h4
        · rename_i hv
          simp only [Memory.wfFrom, Bool.and_eq_true, decide_eq_true_eq]
          exact ⟨⟨⟨h1, h2⟩, by simpa using hv⟩, h4⟩
      · simp only [Memory.wfFrom, Bool.and_eq_true, decide_eq_true_eq]
        exact ⟨⟨⟨h1, h2⟩, h3⟩, Memory.write_wfFrom v ha (by omega) h4⟩

/-- Writing a writable cell keeps the canonical form. -/
theorem Memory.write_wf {m : Memory} {a : Nat} (v : Byte) (ha : a < 32) (h : Memory.wf m = true) :
    Memory.wf (Memory.write m a v) = true :=
  Memory.write_wfFrom v ha (Nat.zero_le a) h

/-- The reset buffer, and a cleared one, has the canonical form. -/
theorem Memory.nil_wf : Memory.wf [] = true := rfl

/-! ### Reads -/

theorem Memory.read_below {m : Memory} {lo a : Nat} (h : Memory.wfFrom lo m = true) (ha : a < lo) :
    Memory.read m a = blankCell := by
  induction m generalizing lo with
  | nil => rfl
  | cons e rest ih =>
    obtain ⟨k, b⟩ := e
    simp only [Memory.wfFrom, Bool.and_eq_true, decide_eq_true_eq] at h
    have hk : ¬ a = k := by omega
    simp only [Memory.read, hk, if_false]
    exact ih h.2 (by omega)

theorem Memory.read_write_from {m : Memory} {lo a : Nat} {v : Byte}
    (h : Memory.wfFrom lo m = true) : Memory.read (Memory.write m a v) a = v := by
  induction m generalizing lo with
  | nil => unfold Memory.write; split <;> simp [Memory.read, *]
  | cons e rest ih =>
    obtain ⟨k, b⟩ := e
    have hw := h
    simp only [Memory.wfFrom, Bool.and_eq_true, decide_eq_true_eq] at hw
    unfold Memory.write
    split
    · split
      · rename_i hak hv
        have hk : ¬ a = k := by omega
        simp only [Memory.read, hk, if_false, hv]
        exact Memory.read_below hw.2 (by omega)
      · simp [Memory.read]
    · split
      · subst_vars
        split
        · rename_i hv
          rw [hv]
          exact Memory.read_below hw.2 (by omega)
        · simp [Memory.read]
      · rename_i hne
        simp only [Memory.read, hne, if_false]
        exact ih hw.2

/-- A read after a write of the same index gives the value written. -/
theorem Memory.read_write_same {m : Memory} {a : Nat} {v : Byte} (h : Memory.wf m = true) :
    Memory.read (Memory.write m a v) a = v :=
  Memory.read_write_from h

/-- A write leaves every other index alone, whatever the form of the list. -/
theorem Memory.read_write_other {a b : Nat} (v : Byte) (hne : b ≠ a) :
    ∀ m : Memory, Memory.read (Memory.write m a v) b = Memory.read m b
  | [] => by unfold Memory.write; split <;> simp [Memory.read, hne]
  | (k, c) :: rest => by
    unfold Memory.write
    split
    · split
      · rfl
      · simp [Memory.read, hne]
    · split
      · subst_vars
        split <;> simp [Memory.read, hne]
      · simp only [Memory.read]
        rw [Memory.read_write_other v hne rest]

/-- Two canonical buffers that read the same everywhere are the same list. -/
theorem Memory.wfFrom_ext {m n : Memory} {lo : Nat} (hm : Memory.wfFrom lo m = true)
    (hn : Memory.wfFrom lo n = true) (h : ∀ a, Memory.read m a = Memory.read n a) : m = n := by
  induction m generalizing n lo with
  | nil =>
    cases n with
    | nil => rfl
    | cons e rest =>
      obtain ⟨k, b⟩ := e
      simp only [Memory.wfFrom, Bool.and_eq_true, bne_iff_ne] at hn
      have := h k
      simp [Memory.read] at this
      exact absurd this.symm hn.1.2
  | cons e rest ih =>
    obtain ⟨k, b⟩ := e
    cases n with
    | nil =>
      simp only [Memory.wfFrom, Bool.and_eq_true, bne_iff_ne] at hm
      have := h k
      simp [Memory.read] at this
      exact absurd this hm.1.2
    | cons e' rest' =>
      obtain ⟨k', b'⟩ := e'
      have hm' := hm
      have hn' := hn
      simp only [Memory.wfFrom, Bool.and_eq_true, bne_iff_ne, decide_eq_true_eq] at hm hn
      have hk : k = k' := by
        rcases Nat.lt_trichotomy k k' with hlt | heq | hgt
        · have h1 := h k
          have hne : ¬ k = k' := by omega
          rw [Memory.read, if_pos rfl, Memory.read, if_neg hne,
            Memory.read_below hn.2 (by omega)] at h1
          exact absurd h1 hm.1.2
        · exact heq
        · have h1 := h k'
          have hne : ¬ k' = k := by omega
          rw [Memory.read, if_neg hne, Memory.read_below hm.2 (by omega), Memory.read,
            if_pos rfl] at h1
          exact absurd h1.symm hn.1.2
      subst hk
      have hb : b = b' := by simpa [Memory.read] using h k
      subst hb
      rw [ih hm.2 hn.2]
      intro a
      by_cases ha : a = k
      · subst ha
        rw [Memory.read_below hm.2 (by omega), Memory.read_below hn.2 (by omega)]
      · simpa [Memory.read, ha] using h a

/-! ### Cells -/

/-- BUF[32], and any index above it, reads 0x00 (R22). -/
@[simp] theorem State.cell_of_ge {s : State} {k : Nat} (h : 32 ≤ k) : s.cell k = 0x00#8 := by
  simp [State.cell, Nat.not_lt.mpr h]

/-- A written cell reads back the character, in a canonical buffer (R141). -/
theorem State.writeCell_cell_same {s : State} (i : CellIndex) (c : Byte)
    (h : Memory.wf s.buf = true) : (s.writeCell i c).cell i.toNat = c := by
  simp [State.cell, State.writeCell_buf, Memory.read_write_same h, i.isLt]

/-- A write of a cell leaves every other cell alone (R141). -/
theorem State.writeCell_cell_other {s : State} {i : CellIndex} {c : Byte} {k : Nat}
    (h : k ≠ i.toNat) : (s.writeCell i c).cell k = s.cell k := by
  simp [State.cell, State.writeCell_buf, Memory.read_write_other c h]

/-- Every cell of a cleared buffer reads 0x00 (R131). -/
@[simp] theorem State.clearBuffer_cell (s : State) (k : Nat) : s.clearBuffer.cell k = 0x00#8 := by
  simp [State.cell, Memory.read, blankCell]

/-- Every cell reads 0x00 after a RESET (R200). -/
@[simp] theorem State.resetAll_cell (s : State) (k : Nat) : s.resetAll.cell k = 0x00#8 := by
  simp [State.cell, Memory.read, blankCell]

/-- A cell after a CTRL write: 0x00 where CLR is set, else as it was (R131). -/
theorem State.writeCtrl_cell (v : Word) (s : State) (k : Nat) :
    (s.writeCtrl v).cell k = if ctrlClr v then 0x00#8 else s.cell k := by
  cases h : ctrlClr v <;> simp [State.cell, h, Memory.read, blankCell]

end Sys2Proof.Machine
end

