-- ==== Sys2Proof/Laws/Exec.lean ====
section
/-! SUPPORT. What each event answers, and, once for all events, what an event can do. -/

namespace Sys2Proof.Machine

/-- The low 8 bits of the bus data (R52). -/
theorem lowByte_eq (v : Word) : lowByte v = v.setWidth 8 := by
  apply BitVec.eq_of_getLsbD_eq
  intro i hi
  simp [lowByte, hi]

@[simp] theorem exec_rdCtrl (s : State) : exec .rdCtrl s = .next (s.returnData s.ctrlWord) := rfl
@[simp] theorem exec_wrCtrl (v : Word) (s : State) : exec (.wrCtrl v) s = .next (s.writeCtrl v) := rfl
@[simp] theorem exec_rdStatus (s : State) : exec .rdStatus s = .next (s.returnData s.statusWord) := rfl
@[simp] theorem exec_wrStatus (v : Word) (s : State) : exec (.wrStatus v) s = .next s := rfl
@[simp] theorem exec_rdStc (s : State) : exec .rdStc s = .next (s.returnData s.stc) := rfl
@[simp] theorem exec_wrStc (v : Word) (s : State) : exec (.wrStc v) s = .next (s.setStc v) := rfl
@[simp] theorem exec_rdDisp (s : State) : exec .rdDisp s = .next (s.returnData s.dispWord) := rfl
@[simp] theorem exec_wrDisp (v : Word) (s : State) : exec (.wrDisp v) s = .next s := rfl
@[simp] theorem exec_rdGprobe (s : State) : exec .rdGprobe s = .next (s.returnData s.gprobeWord) := rfl
@[simp] theorem exec_wrGprobe (v : Word) (s : State) : exec (.wrGprobe v) s = .next (s.setGp (lowByte v)) := rfl
@[simp] theorem exec_rdBuf (i : CellIndex) (s : State) : exec (.rdBuf i) s = .next (s.returnData (s.bufWord i)) := rfl
@[simp] theorem exec_wrBuf (i : CellIndex) (v : Word) (s : State) : exec (.wrBuf i v) s = .next (s.writeCell i (lowByte v)) := rfl
@[simp] theorem exec_rdBufterm (s : State) : exec .rdBufterm s = .next (s.returnData s.buftermWord) := rfl
@[simp] theorem exec_wrBufterm (v : Word) (s : State) : exec (.wrBufterm v) s = .next s := rfl
@[simp] theorem exec_rdRsvd (a : Addr) (s : State) : exec (.rdRsvd a) s = .next (s.returnData zeroWord) := rfl
@[simp] theorem exec_wrRsvd (a : Addr) (v : Word) (s : State) : exec (.wrRsvd a v) s = .next s := rfl
@[simp] theorem exec_tick (s : State) : exec .tick s = .next (if s.en then s.renderTick else s.dropTick) := rfl
@[simp] theorem exec_reset (s : State) : exec .reset s = .next s.resetAll := rfl
@[simp] theorem exec_rsvdEvent (k : BitVec 1) (p : Payload) (s : State) : exec (.rsvdEvent k p) s = .refused .reservedEventPayload := rfl

/-- A read answers from every state, with a value that the read data before it does not change (R56). -/
theorem exec_read {i : Instr} (h : i.isRead = true) (s : State) :
    ∃ v, exec i s = .next (s.returnData v) ∧
      ∀ r, exec i { s with rdata := r } = .next (s.returnData v) := by
  cases i <;> simp [Instr.isRead] at h <;> exact ⟨_, rfl, fun _ => rfl⟩

/-- What an event can do, once for all events: if it answers a next state, then it is a bus read that
returned a value, a write that changed nothing, one of the four writes that change something, a TICK
executed or dropped, or a RESET. -/
theorem exec_cases {i : Instr} {s t : State} (h : exec i s = .next t) :
    (i.isRead = true ∧ ∃ v, t = s.returnData v) ∨
    (i.isWrite = true ∧ t = s) ∨
    (∃ v, i = .wrCtrl v ∧ t = s.writeCtrl v) ∨
    (∃ v, i = .wrStc v ∧ t = s.setStc v) ∨
    (∃ v, i = .wrGprobe v ∧ t = s.setGp (lowByte v)) ∨
    (∃ n v, i = .wrBuf n v ∧ t = s.writeCell n (lowByte v)) ∨
    (i = .tick ∧ s.en = true ∧ t = s.renderTick) ∨
    (i = .tick ∧ s.en = false ∧ t = s.dropTick) ∨
    (i = .reset ∧ t = s.resetAll) := by
  cases i <;>
    simp only [exec_rdCtrl, exec_wrCtrl, exec_rdStatus, exec_wrStatus, exec_rdStc, exec_wrStc,
      exec_rdDisp, exec_wrDisp, exec_rdGprobe, exec_wrGprobe, exec_rdBuf, exec_wrBuf, exec_rdBufterm,
      exec_wrBufterm, exec_rdRsvd, exec_wrRsvd, exec_tick, exec_reset, exec_rsvdEvent,
      Host.Outcome.next.injEq, reduceCtorEq] at h
  case tick => cases hen : s.en <;> simp_all
  all_goals subst h; simp [Instr.isRead, Instr.isWrite]
  case rdCtrl => exact ⟨_, rfl⟩
  case rdStatus => exact ⟨_, rfl⟩
  case rdStc => exact ⟨_, rfl⟩
  case rdDisp => exact ⟨_, rfl⟩
  case rdGprobe => exact ⟨_, rfl⟩
  case rdBuf => exact ⟨_, rfl⟩
  case rdBufterm => exact ⟨_, rfl⟩
  case rdRsvd => exact ⟨_, rfl⟩

end Sys2Proof.Machine
end

