-- ==== Sys2Proof/Laws/Fields.lean ====
section
/-! SUPPORT. The fields of an op word: taking apart what was put together, and the other way. -/

namespace Sys2Proof

/-- The bits of a bus word (R70). -/
theorem busWord_getLsbD (k : BitVec 2) (a : Addr) (d : Word) (i : Nat) :
    (busWord k a d).getLsbD i =
      if i < 16 then d.getLsbD i else if i - 16 < 8 then a.getLsbD (i - 16)
      else k.getLsbD (i - 16 - 8) := by
  have h : (busWord k a d).getLsbD i =
      if i < 16 then d.getLsbD i else (k ++ a).getLsbD (i - 16) :=
    BitVec.getLsbD_append (x := k ++ a) (y := d) (i := i)
  rw [h, BitVec.getLsbD_append]

/-- The bits of a sideband word (R70). -/
theorem sidebandWord_getLsbD (k : BitVec 2) (p : Payload) (i : Nat) :
    (sidebandWord k p).getLsbD i = if i < 24 then p.getLsbD i else k.getLsbD (i - 24) :=
  BitVec.getLsbD_append (x := k) (y := p) (i := i)

@[simp] theorem OpWord.kind_busWord (k : BitVec 2) (a : Addr) (d : Word) :
    OpWord.kind (busWord k a d) = k := by
  apply BitVec.eq_of_getLsbD_eq
  intro i hi
  simp [OpWord.kind, busWord_getLsbD, hi,
    show ¬ 24 + i < 16 by omega, show ¬ 24 + i - 16 < 8 by omega,
    show 24 + i - 16 - 8 = i by omega]

@[simp] theorem OpWord.addr_busWord (k : BitVec 2) (a : Addr) (d : Word) :
    OpWord.addr (busWord k a d) = a := by
  apply BitVec.eq_of_getLsbD_eq
  intro i hi
  simp [OpWord.addr, busWord_getLsbD, hi]

@[simp] theorem OpWord.data_busWord (k : BitVec 2) (a : Addr) (d : Word) :
    OpWord.data (busWord k a d) = d := by
  apply BitVec.eq_of_getLsbD_eq
  intro i hi
  simp [OpWord.data, busWord_getLsbD, hi]

@[simp] theorem OpWord.kind_sidebandWord (k : BitVec 2) (p : Payload) :
    OpWord.kind (sidebandWord k p) = k := by
  apply BitVec.eq_of_getLsbD_eq
  intro i hi
  simp [OpWord.kind, sidebandWord_getLsbD, hi]

@[simp] theorem OpWord.payload_sidebandWord (k : BitVec 2) (p : Payload) :
    OpWord.payload (sidebandWord k p) = p := by
  apply BitVec.eq_of_getLsbD_eq
  intro i hi
  simp [OpWord.payload, sidebandWord_getLsbD, hi]

/-- A word is its three bus fields put together (R70). -/
theorem busWord_fields (w : OpWord) :
    busWord (OpWord.kind w) (OpWord.addr w) (OpWord.data w) = w := by
  apply BitVec.eq_of_getLsbD_eq
  intro i hi
  simp only [busWord_getLsbD, OpWord.kind, OpWord.addr, OpWord.data, BitVec.getLsbD_extractLsb']
  split
  · simp [*]
  · split
    · rename_i h1 h2
      simp [h2, show 16 + (i - 16) = i by omega]
    · rename_i h1 h2
      simp [show i - 16 - 8 < 2 by omega, show 24 + (i - 16 - 8) = i by omega]

/-- A word is its KIND and its payload put together (R70). -/
theorem sidebandWord_fields (w : OpWord) :
    sidebandWord (OpWord.kind w) (OpWord.payload w) = w := by
  apply BitVec.eq_of_getLsbD_eq
  intro i hi
  simp only [sidebandWord_getLsbD, OpWord.kind, OpWord.payload, BitVec.getLsbD_extractLsb']
  split
  · simp [*]
  · rename_i h1
    simp [show i - 24 < 2 by omega, show 24 + (i - 24) = i by omega]

@[simp] theorem bufAddr_high (i : CellIndex) : (bufAddr i).extractLsb' 5 3 = 0b001#3 := by
  revert i; decide

@[simp] theorem bufAddr_low (i : CellIndex) : (bufAddr i).extractLsb' 0 5 = i := by
  revert i; decide

/-- An address whose high bits are 001 is a buffer cell's (R38). -/
theorem bufAddr_of_high {a : Addr} (h : a.extractLsb' 5 3 = 0b001#3) :
    bufAddr (a.extractLsb' 0 5) = a := by
  revert a; decide

/-- The addresses no specific row takes are the reserved ones (R40, R75). -/
theorem reservedAddr_iff (a : Addr) : reservedAddr a = true ↔
    a ≠ 0x00#8 ∧ a ≠ 0x01#8 ∧ a ≠ 0x02#8 ∧ a ≠ 0x03#8 ∧ a ≠ 0x04#8 ∧
      a.extractLsb' 5 3 ≠ 0b001#3 ∧ a ≠ 0x40#8 := by
  revert a; decide

end Sys2Proof
end

