-- ==== Sys2Proof/Laws/Cycle.lean ====
section
/-! SUPPORT. The clock cycle: which events a cycle's inputs are, what the step does with them, and what
the edge does to each field. -/

namespace Sys2Proof.Machine

/-! ### The words and events of a cycle -/

/-- The one event of an op word presents exactly that word. -/
@[simp] theorem Cycle.words_ofWord (w : OpWord) : (Cycle.ofWord w).words = [w] := by
  have hs := sidebandWord_fields w
  have hb := busWord_fields w
  unfold Cycle.ofWord
  split
  · rename_i h; rw [h] at hs; simp [Cycle.words, hs]
  · split
    · rename_i h; rw [h] at hs; simp [Cycle.words, hs]
    · rename_i h3 h2
      have hk : (if (OpWord.kind w == 0b01#2) = true then 0b01#2 else 0b00#2) = OpWord.kind w := by
        revert h2 h3; generalize OpWord.kind w = k; revert k; decide
      simp only [Cycle.words, BusAccess.word, Option.map_none, Option.toList_none, Option.map_some,
        Option.toList_some, List.nil_append]
      rw [hk, hb]

/-- A single event takes effect as it is. -/
@[simp] theorem effective_singleton (i : Instr) : effective [i] = [i] := by
  cases i <;> rfl

/-- The cycle of an op word runs exactly the event it decodes to (R59). -/
@[simp] theorem Cycle.events_ofWord (w : OpWord) : (Cycle.ofWord w).events = [decode w] := by
  simp [Cycle.events]

@[simp] theorem Cycle.events_idle : Cycle.idle.events = [] := rfl

/-- The event of a read access (R75). -/
@[simp] theorem decode_busRead (a : Addr) (v : Word) :
    decode (BusAccess.word ⟨false, a, v⟩) = decodeRead a := by
  simp [BusAccess.word, decode]

/-- The event of a write access (R75). -/
@[simp] theorem decode_busWrite (a : Addr) (v : Word) :
    decode (BusAccess.word ⟨true, a, v⟩) = decodeWrite a v := by
  simp [BusAccess.word, decode]

theorem decodeRead_isRead (a : Addr) : (decodeRead a).isRead = true := by
  unfold decodeRead; repeat' split
  all_goals rfl

theorem decodeWrite_isWrite (a : Addr) (v : Word) : (decodeWrite a v).isWrite = true := by
  unfold decodeWrite; repeat' split
  all_goals rfl

/-- A bus access is a bus event: neither a RESET nor a reserved word. -/
theorem decode_busAccess (b : BusAccess) :
    (decode b.word).isRsvdEvent = false ∧ decode b.word ≠ .reset := by
  have hk : OpWord.kind b.word = 0b00#2 ∨ OpWord.kind b.word = 0b01#2 := by
    unfold BusAccess.word; cases b.we <;> simp
  unfold decode decodeRead decodeWrite
  rcases hk with h | h
  · simp only [h, if_true]
    repeat' split
    all_goals simp [Instr.isRsvdEvent]
  · simp only [h, if_true, show ¬ (0b01#2 = 0b00#2) by decide, if_false]
    repeat' split
    all_goals simp [Instr.isRsvdEvent]

/-- The cycle the ports present runs RESET alone where rst = 1 (R57). -/
theorem Cycle.events_ofPorts_rst (t : Bool) (bus : Option BusAccess) :
    (Cycle.ofPorts true t bus).events = [.reset] := by
  cases t <;> cases bus with
  | none => decide
  | some b =>
    have h := decode_busAccess b
    simp [Cycle.events, Cycle.ofPorts, Cycle.words, effective, h.1,
      show decode (sidebandWord 0b11#2 0#24) = .reset by decide,
      show decode (sidebandWord 0b10#2 0#24) = .tick by decide,
      show Instr.isRsvdEvent .reset = false by rfl, show Instr.isRsvdEvent .tick = false by rfl]

/-- Without rst, the TICK comes first and then the bus access (R57). -/
theorem Cycle.events_ofPorts (t : Bool) (bus : Option BusAccess) :
    (Cycle.ofPorts false t bus).events =
      (if t then [.tick] else []) ++ (bus.map fun b => decode b.word).toList := by
  cases t <;> cases bus with
  | none => decide
  | some b =>
    have h := decode_busAccess b
    simp [Cycle.events, Cycle.ofPorts, Cycle.words, effective, h.1, Ne.symm h.2,
      show decode (sidebandWord 0b10#2 0#24) = .tick by decide,
      show Instr.isRsvdEvent .tick = false by rfl]

/-! ### Running events -/

@[simp] theorem execAll_nil (s : State) : execAll [] s = .next s := rfl

@[simp] theorem execAll_singleton (i : Instr) (s : State) : execAll [i] s = exec i s := by
  simp only [execAll]; cases exec i s <;> rfl

/-- An event that answers a next state hands it to the events after it. -/
theorem execAll_cons {i : Instr} {is : List Instr} {s t : State} (h : exec i s = .next t) :
    execAll (i :: is) s = execAll is t := by
  simp [execAll, h]

/-- Events one after another: the first list and then the second. -/
theorem execAll_append {is : List Instr} (js : List Instr) {s t : State} (h : execAll is s = .next t) :
    execAll (is ++ js) s = execAll js t := by
  induction is generalizing s with
  | nil => cases h; rfl
  | cons i is ih =>
    cases hx : exec i s with
    | next m => rw [execAll_cons hx] at h; rw [List.cons_append, execAll_cons hx]; exact ih h
    | fault r => cases r
    | refused r => simp [execAll, hx] at h

/-! ### The step -/

/-- The step runs the events of the next cycle and then the edge. -/
theorem step_cons {s : State} {c : Cycle} {rest : List Cycle} (h : s.trace = c :: rest) :
    step s = endCycle (execAll c.events (s.beginCycle rest)) := by
  simp [step, nextCycle, h, runCycle]

/-- Where the outside presents nothing more, the step is the edge alone (R176). -/
theorem step_nil {s : State} (h : s.trace = []) : step s = .next (s.beginCycle []).clockEdge := by
  simp [step, nextCycle, h, runCycle, endCycle]

@[simp] theorem endCycle_next (t : State) : endCycle (.next t) = .next t.clockEdge := rfl

/-- A run goes on from the state its first step answers. -/
theorem runSteps_succ {n : Nat} {s t : State} (h : step s = .next t) :
    runSteps (n + 1) s = runSteps n t := by
  simp [runSteps, h]

/-- A run stops where a step stops. -/
theorem runSteps_fault {n : Nat} {s : State} {r : Fault} (h : step s = .fault r) :
    runSteps (n + 1) s = .fault r := by
  simp [runSteps, h]

theorem runSteps_refused {n : Nat} {s : State} {r : Refusal} (h : step s = .refused r) :
    runSteps (n + 1) s = .refused r := by
  simp [runSteps, h]

/-- Any machine's run, by the outcome of its first step. -/
theorem coreRun_cases (M : Host.Core) (n : Nat) (s : M.State) :
    (∀ t, M.step s = .next t → M.run (n + 1) s = M.run n t) ∧
    (∀ r, M.step s = .fault r → M.run (n + 1) s = .fault r) ∧
    (∀ r, M.step s = .refused r → M.run (n + 1) s = .refused r) := by
  refine ⟨fun t h => ?_, fun r h => ?_, fun r h => ?_⟩ <;> simp [Host.Core.run, h]

/-- `runSteps` is the run of the host's interface. -/
theorem runSteps_eq_core (n : Nat) : ∀ s : State, core.run n s = runSteps n s := by
  induction n with
  | zero => exact fun _ => rfl
  | succ n ih =>
    intro s
    have hc := coreRun_cases core n s
    cases hs : step s with
    | next t => exact (hc.1 t hs).trans ((ih t).trans (runSteps_succ hs).symm)
    | fault r => exact (hc.2.1 r hs).trans (runSteps_fault hs).symm
    | refused r => exact (hc.2.2 r hs).trans (runSteps_refused hs).symm

/-! ### The edge, field by field (R214): it moves the pins alone -/

@[simp] theorem State.clockEdge_buf (s : State) : s.clockEdge.buf = s.buf := by
  unfold State.clockEdge; repeat' split
  all_goals rfl
@[simp] theorem State.clockEdge_cc (s : State) : s.clockEdge.cc = s.cc := by
  unfold State.clockEdge; repeat' split
  all_goals rfl
@[simp] theorem State.clockEdge_dc (s : State) : s.clockEdge.dc = s.dc := by
  unfold State.clockEdge; repeat' split
  all_goals rfl
@[simp] theorem State.clockEdge_stc (s : State) : s.clockEdge.stc = s.stc := by
  unfold State.clockEdge; repeat' split
  all_goals rfl
@[simp] theorem State.clockEdge_en (s : State) : s.clockEdge.en = s.en := by
  unfold State.clockEdge; repeat' split
  all_goals rfl
@[simp] theorem State.clockEdge_segOut (s : State) : s.clockEdge.segOut = s.segOut := by
  unfold State.clockEdge; repeat' split
  all_goals rfl
@[simp] theorem State.clockEdge_digOut (s : State) : s.clockEdge.digOut = s.digOut := by
  unfold State.clockEdge; repeat' split
  all_goals rfl
@[simp] theorem State.clockEdge_gp (s : State) : s.clockEdge.gp = s.gp := by
  unfold State.clockEdge; repeat' split
  all_goals rfl
@[simp] theorem State.clockEdge_writes (s : State) : s.clockEdge.writes = s.writes := by
  unfold State.clockEdge; repeat' split
  all_goals rfl
@[simp] theorem State.clockEdge_rdata (s : State) : s.clockEdge.rdata = s.rdata := by
  unfold State.clockEdge; repeat' split
  all_goals rfl
@[simp] theorem State.clockEdge_trace (s : State) : s.clockEdge.trace = s.trace := by
  unfold State.clockEdge; repeat' split
  all_goals rfl
@[simp] theorem State.clockEdge_cell (s : State) (k : Nat) : s.clockEdge.cell k = s.cell k := by
  simp [State.cell]

end Sys2Proof.Machine
end

