-- ==== Sys2Proof/Laws/HostDuties.lean ====
section
/-! SUPPORT. The host's duties: what a buffer that holds a text is, and what each event can do to a host's
view. -/

namespace Sys2Proof.Machine

/-! ### Texts in a buffer -/

/-- A character of a well-formed text is not the terminator (R165). -/
theorem textChar_ne_terminator {c : Byte} (h : textChar c = true) : c ≠ charTerminator := by
  rintro rfl; exact absurd h (by decide)

theorem wellFormedText_length {t : Text} (h : wellFormedText t = true) : t.length ≤ 32 := by
  simp only [wellFormedText, Bool.and_eq_true, decide_eq_true_eq] at h
  exact h.1.1.1.1

theorem wellFormedText_ne_terminator {t : Text} (h : wellFormedText t = true) {c : Byte} (hc : c ∈ t) :
    c ≠ charTerminator := by
  simp only [wellFormedText, Bool.and_eq_true, List.all_eq_true] at h
  exact textChar_ne_terminator (h.1.1.1.2 c hc)

/-- A list is its longest part without a terminator and, where the rest is all terminators, that part
padded with them. -/
theorem takeWhile_getD {cells : List Byte} {k : Nat}
    (h : (cells.drop (cells.takeWhile (· != charTerminator)).length).all (· == charTerminator) = true) :
    (cells.takeWhile (· != charTerminator)).getD k 0x00#8 = cells.getD k 0x00#8 := by
  induction cells generalizing k with
  | nil => rfl
  | cons c rest ih =>
    by_cases hc : c = charTerminator
    · subst hc
      simp only [List.takeWhile, bne_self_eq_false, List.length_nil, List.drop_zero, List.all_eq_true,
        beq_iff_eq] at h ⊢
      rw [List.getD_eq_getElem?_getD, List.getD_eq_getElem?_getD]
      cases hk : (charTerminator :: rest)[k]? with
      | none => simp
      | some d => simp [h d (List.mem_of_getElem? hk), charTerminator]
    · have hb : (c != charTerminator) = true := by simpa using hc
      simp only [List.takeWhile_cons, hb, if_true, List.length_cons, List.drop_succ_cons] at h ⊢
      cases k with
      | zero => rfl
      | succ k => simpa using ih h

/-- A buffer holds a text exactly where some well-formed text, padded with 0x00, is what its writable
cells read as (R160, R165). -/
theorem holdsText_iff (m : Memory) : holdsText m = true ↔
    ∃ t : Text, wellFormedText t = true ∧ ∀ k, k < 32 → Memory.read m k = t.getD k 0x00#8 := by
  have hcell : ∀ k, k < 32 → ((List.range 32).map (Memory.read m)).getD k 0x00#8 = Memory.read m k := by
    intro k hk; simp [List.getD, hk]
  constructor
  · intro h
    simp only [holdsText, Bool.and_eq_true] at h
    exact ⟨_, h.1, fun k hk => by rw [takeWhile_getD h.2, hcell k hk]⟩
  · rintro ⟨t, ht, hm⟩
    have hl := wellFormedText_length ht
    have hcells : (List.range 32).map (Memory.read m) = t ++ List.replicate (32 - t.length) 0x00#8 := by
      apply List.ext_getElem
      · simp; omega
      · intro k h1 _
        have hk : k < 32 := by simpa using h1
        simp only [List.getElem_map, List.getElem_range, hm k hk]
        by_cases hkt : k < t.length
        · simp [hkt, List.getD]
        · simp [List.getElem_append, hkt, List.getD]
    have htake : (t ++ List.replicate (32 - t.length) 0x00#8).takeWhile (· != charTerminator) = t := by
      rw [List.takeWhile_append_of_pos fun c hc => by
        simpa using wellFormedText_ne_terminator ht hc]
      simp [charTerminator]
    simp only [holdsText, hcells, htake, ht, Bool.true_and, List.drop_left, List.all_replicate]
    simp [charTerminator]

/-! ### The duties on EN -/

/-- EN after an event is what `enAfter` says. -/
theorem exec_en {i : Instr} {s t : State} (h : exec i s = .next t) : t.en = enAfter s.en i := by
  cases i
  case tick => cases he : s.en <;> simp [he] at h <;> subst h <;> simp [he, enAfter]
  case rsvdEvent => simp at h
  all_goals simp at h; subst h; simp [enAfter]

/-- A sequence keeps the duties on EN exactly where its parts do, the second from the EN the first
leaves. -/
theorem dutiful_append {is js : List Instr} {s t : State} (h : execAll is s = .next t) :
    dutiful s.en (is ++ js) = (dutiful s.en is && dutiful t.en js) := by
  induction is generalizing s with
  | nil => cases h; simp [dutiful]
  | cons i is ih =>
    cases hx : exec i s with
    | next m =>
      rw [execAll_cons hx] at h
      rw [List.cons_append, dutiful, dutiful, ← exec_en hx, ih h, Bool.and_assoc]
    | fault r => cases r
    | refused r => simp [execAll, hx] at h

/-! ### Runs of a host's view -/

@[simp] theorem HostView.run_nil (p : HostParams) (h : HostView) : h.run p [] = some h := rfl

/-- An event that breaks no duty hands its view to the events after it. -/
theorem HostView.run_cons {p : HostParams} {h g : HostView} {i : Instr} (is : List Instr)
    (hg : h.next p i = some g) : h.run p (i :: is) = g.run p is := by
  simp [HostView.run, hg]

/-- A run that breaks no duty begins with an event that breaks none. -/
theorem HostView.run_cons_some {p : HostParams} {h g : HostView} {i : Instr} {is : List Instr}
    (hr : h.run p (i :: is) = some g) : ∃ m, h.next p i = some m ∧ m.run p is = some g := by
  cases hn : h.next p i with
  | none => simp [HostView.run, hn] at hr
  | some m => exact ⟨m, rfl, by rwa [HostView.run_cons is hn] at hr⟩

theorem HostView.run_append {p : HostParams} {h g : HostView} {is : List Instr} (js : List Instr)
    (hg : h.run p is = some g) : h.run p (is ++ js) = g.run p js := by
  induction is generalizing h with
  | nil => cases hg; rfl
  | cons i is ih =>
    obtain ⟨m, hm, hr⟩ := HostView.run_cons_some hg
    rw [List.cons_append, HostView.run_cons _ hm, ih hr]

/-- What a resume can be: the buffer untouched since EN became 0, or a rewrite that keeps R160. -/
theorem HostView.resume_cases {p : HostParams} {h g : HostView} (hg : h.resume p = some g) :
    (h.text = none ∧ g = { h with en := true }) ∨
    (∃ m, h.text = some m ∧ holdsText m = true ∧ h.stc.isSome = true ∧ h.stc = h.dueStc p ∧
      g = ⟨true, true, none, none, h.rewrites.tail⟩) := by
  unfold HostView.resume at hg
  split at hg
  · rename_i ht; cases hg; exact .inl ⟨ht, rfl⟩
  · rename_i m ht
    split at hg
    · rename_i hc
      simp only [Bool.and_eq_true, beq_iff_eq] at hc
      cases hg
      exact .inr ⟨m, ht, hc.1.1, hc.1.2, hc.2, rfl⟩
    · cases hg

/-- A buffer write breaks no duty only into a cleared buffer while EN = 0. -/
theorem HostView.writeCell_some {i : CellIndex} {c : Byte} {h g : HostView}
    (hg : h.writeCell i c = some g) : h.en = false ∧ ∃ m, h.text = some m ∧
      g = { h with text := some (Memory.write m i.toNat c) } := by
  unfold HostView.writeCell at hg
  split at hg
  · cases hg
  · rename_i he
    cases ht : h.text with
    | none => simp [ht] at hg
    | some m => exact ⟨by simpa using he, m, rfl, by simpa [ht] using hg.symm⟩

/-- An event that breaks no duty keeps the duties on EN, and leaves the EN it says. -/
theorem HostView.next_en {p : HostParams} {h g : HostView} {i : Instr} (hg : h.next p i = some g) :
    g.en = enAfter h.en i ∧ keepsEnDuties h.en i = true := by
  cases i
  case wrBuf n v =>
    obtain ⟨he, m, -, rfl⟩ := HostView.writeCell_some hg
    simp [enAfter, keepsEnDuties, he]
  case wrCtrl v =>
    simp only [HostView.next, HostView.writeCtrl] at hg
    simp only [enAfter, keepsEnDuties]
    cases hv : ctrlEn v <;> cases hh : h.en <;> cases hl : ctrlClr v <;> cases hr : ctrlCrst v <;>
      simp [hv, hh, hl, hr] at hg ⊢
    all_goals first
      | (rcases HostView.resume_cases hg with ⟨_, rfl⟩ | ⟨_, _, _, _, _, rfl⟩ <;> rfl)
      | (subst hg; simp [hh])
  all_goals first
    | (simp [HostView.next] at hg; done)
    | (simp [HostView.next] at hg; subst hg; exact ⟨rfl, rfl⟩)

end Sys2Proof.Machine
end

