-- ==== Sys2Proof/Laws/PerInstr.lean ====
section
/-! SUPPORT. Statements made of every instruction, one lemma a constructor. The family `EncodedRow`: the
op word of an event has the mask and pattern that spec/opcode_table.json gives the event's row. -/

namespace Sys2Proof

/-! ### The table's masks as fields -/

theorem and_kindAddr (w : OpWord) :
    w &&& 0x3FF0000#26 = busWord (OpWord.kind w) (OpWord.addr w) 0#16 := by
  apply BitVec.eq_of_getLsbD_eq
  intro i hi
  rw [BitVec.getLsbD_and, busWord_getLsbD]
  interval_cases i <;> simp [OpWord.kind, OpWord.addr]

theorem and_kind (w : OpWord) : w &&& 0x3000000#26 = busWord (OpWord.kind w) 0#8 0#16 := by
  apply BitVec.eq_of_getLsbD_eq
  intro i hi
  rw [BitVec.getLsbD_and, busWord_getLsbD]
  interval_cases i <;> simp [OpWord.kind]

theorem and_kindHigh (w : OpWord) :
    w &&& 0x3E00000#26 = busWord (OpWord.kind w) (OpWord.addr w &&& 0xE0#8) 0#16 := by
  apply BitVec.eq_of_getLsbD_eq
  intro i hi
  rw [BitVec.getLsbD_and, busWord_getLsbD]
  interval_cases i <;> simp [OpWord.kind, OpWord.addr]

theorem and_all (w : OpWord) : w &&& 0x3FFFFFF#26 = w := by
  apply BitVec.eq_of_getLsbD_eq
  intro i hi
  rw [BitVec.getLsbD_and]
  interval_cases i <;> simp

theorem and_sideband (w : OpWord) :
    w &&& 0x2000000#26 = busWord (OpWord.kind w &&& 0b10#2) 0#8 0#16 := by
  apply BitVec.eq_of_getLsbD_eq
  intro i hi
  rw [BitVec.getLsbD_and, busWord_getLsbD]
  interval_cases i <;> simp [OpWord.kind]

@[simp] theorem bufAddr_mask (i : CellIndex) : bufAddr i &&& 0xE0#8 = 0x20#8 := by
  revert i; decide

@[simp] theorem sidebandKind_mask (k : BitVec 1) : (0b1#1 ++ k : BitVec 2) &&& 0b10#2 = 0b10#2 := by
  revert k; decide

/-! ### The family -/

/-- The op word of a well-formed event matches its row of the opcode table. -/
def Laws.EncodedRow.Statement (i : Instr) : Prop :=
  i.wellFormed = true → ∀ r ∈ opTable, r.row = i.row → r.matchesWord (encode i) = true

/-- Only the event's own row is left to check. -/
theorem encodedRow_of_row {i : Instr} {r : OpRow} (hr : opTable.filter (·.row == i.row) = [r])
    (h : r.matchesWord (encode i) = true) : Laws.EncodedRow.Statement i := by
  intro _ r' hmem hrow
  have : r' ∈ opTable.filter (·.row == i.row) := by simp [List.mem_filter, hmem, hrow]
  rw [hr, List.mem_singleton] at this
  rw [this]
  exact h

theorem Laws.EncodedRow.rdCtrl : Laws.EncodedRow.Statement .rdCtrl :=
  encodedRow_of_row rfl (by
    rw [OpRow.matchesWord, and_kindAddr]; simp [encode, readWord]; decide)

theorem Laws.EncodedRow.wrCtrl (v : Word) : Laws.EncodedRow.Statement (.wrCtrl v) :=
  encodedRow_of_row rfl (by
    rw [OpRow.matchesWord, and_kindAddr]; simp [encode, writeWord]; decide)

theorem Laws.EncodedRow.rdStatus : Laws.EncodedRow.Statement .rdStatus :=
  encodedRow_of_row rfl (by
    rw [OpRow.matchesWord, and_kindAddr]; simp [encode, readWord]; decide)

theorem Laws.EncodedRow.wrStatus (v : Word) : Laws.EncodedRow.Statement (.wrStatus v) :=
  encodedRow_of_row rfl (by
    rw [OpRow.matchesWord, and_kindAddr]; simp [encode, writeWord]; decide)

theorem Laws.EncodedRow.rdStc : Laws.EncodedRow.Statement .rdStc :=
  encodedRow_of_row rfl (by
    rw [OpRow.matchesWord, and_kindAddr]; simp [encode, readWord]; decide)

theorem Laws.EncodedRow.wrStc (v : Word) : Laws.EncodedRow.Statement (.wrStc v) :=
  encodedRow_of_row rfl (by
    rw [OpRow.matchesWord, and_kindAddr]; simp [encode, writeWord]; decide)

theorem Laws.EncodedRow.rdDisp : Laws.EncodedRow.Statement .rdDisp :=
  encodedRow_of_row rfl (by
    rw [OpRow.matchesWord, and_kindAddr]; simp [encode, readWord]; decide)

theorem Laws.EncodedRow.wrDisp (v : Word) : Laws.EncodedRow.Statement (.wrDisp v) :=
  encodedRow_of_row rfl (by
    rw [OpRow.matchesWord, and_kindAddr]; simp [encode, writeWord]; decide)

theorem Laws.EncodedRow.rdGprobe : Laws.EncodedRow.Statement .rdGprobe :=
  encodedRow_of_row rfl (by
    rw [OpRow.matchesWord, and_kindAddr]; simp [encode, readWord]; decide)

theorem Laws.EncodedRow.wrGprobe (v : Word) : Laws.EncodedRow.Statement (.wrGprobe v) :=
  encodedRow_of_row rfl (by
    rw [OpRow.matchesWord, and_kindAddr]; simp [encode, writeWord]; decide)

theorem Laws.EncodedRow.rdBuf (i : CellIndex) : Laws.EncodedRow.Statement (.rdBuf i) :=
  encodedRow_of_row rfl (by
    rw [OpRow.matchesWord, and_kindHigh]; simp [encode, readWord]; decide)

theorem Laws.EncodedRow.wrBuf (i : CellIndex) (v : Word) : Laws.EncodedRow.Statement (.wrBuf i v) :=
  encodedRow_of_row rfl (by
    rw [OpRow.matchesWord, and_kindHigh]; simp [encode, writeWord]; decide)

theorem Laws.EncodedRow.rdBufterm : Laws.EncodedRow.Statement .rdBufterm :=
  encodedRow_of_row rfl (by
    rw [OpRow.matchesWord, and_kindAddr]; simp [encode, readWord]; decide)

theorem Laws.EncodedRow.wrBufterm (v : Word) : Laws.EncodedRow.Statement (.wrBufterm v) :=
  encodedRow_of_row rfl (by
    rw [OpRow.matchesWord, and_kindAddr]; simp [encode, writeWord]; decide)

theorem Laws.EncodedRow.rdRsvd (a : Addr) : Laws.EncodedRow.Statement (.rdRsvd a) :=
  encodedRow_of_row rfl (by
    rw [OpRow.matchesWord, and_kind]; simp [encode, readWord]; decide)

theorem Laws.EncodedRow.wrRsvd (a : Addr) (v : Word) : Laws.EncodedRow.Statement (.wrRsvd a v) :=
  encodedRow_of_row rfl (by
    rw [OpRow.matchesWord, and_kind]; simp [encode, writeWord]; decide)

theorem Laws.EncodedRow.tick : Laws.EncodedRow.Statement .tick :=
  encodedRow_of_row rfl (by decide)

theorem Laws.EncodedRow.reset : Laws.EncodedRow.Statement .reset :=
  encodedRow_of_row rfl (by decide)

theorem Laws.EncodedRow.rsvdEvent (k : BitVec 1) (p : Payload) : Laws.EncodedRow.Statement (.rsvdEvent k p) :=
  encodedRow_of_row rfl (by
    rw [OpRow.matchesWord, and_sideband]; simp [encode]; decide)

end Sys2Proof
end

