-- ==== Sys2Proof/Tests/Slice0.lean ====
section
/-! SUPPORT. Tests of the model. Expected results are the spec's own: the worked encodings of
30_encoding.md R84 and the vectors of 95_test_vectors.md (cited by their labels). -/

namespace Sys2Proof.Tests
open Sys2Proof Sys2Proof.Machine

/-! ### Small states -/

/-- The buffer that holds a text from index `k` on. -/
def bufOf (k : Nat) : Text → Memory
  | [] => []
  | c :: rest => if c = 0x00#8 then bufOf (k + 1) rest else (k, c) :: bufOf (k + 1) rest

/-- A state with a text, cursors, STC and EN; everything else as after reset. -/
def st (t : Text) (cc : BitVec 5) (dc : BitVec 3) (stc : Word) (en : Bool) : State :=
  { State.reset with buf := bufOf 0 t, cc := cc, dc := dc, stc := stc, en := en }

/-- The next state of an outcome that has one. -/
def got : Host.Outcome State Fault Refusal → Option State
  | .next t => some t
  | .fault _ => none
  | .refused _ => none

/-- What a tick result of 95_test_vectors.md lists: SEG_OUT, DIG_OUT, CC, DC, STC. -/
def tickResult (s : State) : Option (Byte × Byte × BitVec 5 × BitVec 3 × Word) :=
  (got (exec .tick s)).map fun t => (t.segOut, t.digOut, t.cc, t.dc, t.stc)

/-- The value a read returns. -/
def readResult (i : Instr) (s : State) : Option Word := (got (exec i s)).bind (·.rdata)

def text8888 : Text := startupText
def text123456789 : Text :=
  [0x31#8, 0x32#8, 0x33#8, 0x34#8, 0x35#8, 0x36#8, 0x37#8, 0x38#8, 0x39#8]
def textSample : Text :=
  [0x32#8, 0x33#8, 0x2E#8, 0x35#8, 0x30#8, 0x36#8, 0x31#8, 0x2E#8, 0x30#8, 0x30#8]

/-! ### WellFormed refuses an ill-formed term, one for each check -/

theorem test_wf_rdRsvd_below : (Instr.rdRsvd 0x04#8).wellFormed = false := by decide
theorem test_wf_rdRsvd_buf : (Instr.rdRsvd 0x20#8).wellFormed = false := by decide
theorem test_wf_rdRsvd_term : (Instr.rdRsvd 0x40#8).wellFormed = false := by decide
theorem test_wf_wrRsvd_buf : (Instr.wrRsvd 0x3F#8 0#16).wellFormed = false := by decide
theorem test_wf_rsvdEvent_zero : (Instr.rsvdEvent 0#1 0#24).wellFormed = false := by decide
theorem test_wf_rdRsvd_edges : (Instr.rdRsvd 0x05#8).wellFormed = true ∧
    (Instr.rdRsvd 0x1F#8).wellFormed = true ∧ (Instr.rdRsvd 0x41#8).wellFormed = true ∧
    (Instr.rdRsvd 0xFF#8).wellFormed = true := by decide

/-! ### Decoding: words written out from R70, R84 and 95_test_vectors.md 2.8 -/

theorem test_decode_rdCtrl : decode 0x0000000#26 = .rdCtrl := by decide
theorem test_decode_rdCtrl_data : decode 0x000FFFF#26 = .rdCtrl := by decide
theorem test_decode_wrCtrl : decode 0x1000003#26 = .wrCtrl 0x0003#16 := by decide
theorem test_decode_rdStatus : decode 0x0010000#26 = .rdStatus := by decide
theorem test_decode_wrStatus : decode 0x101FFFF#26 = .wrStatus 0xFFFF#16 := by decide
theorem test_decode_rdStc : decode 0x0020000#26 = .rdStc := by decide
theorem test_decode_wrStc : decode 0x10203E7#26 = .wrStc 0x03E7#16 := by decide
theorem test_decode_rdDisp : decode 0x0030000#26 = .rdDisp := by decide
theorem test_decode_wrDisp : decode 0b01000000110000000111111111#26 = .wrDisp 0x01FF#16 := by decide
theorem test_decode_rdGprobe : decode 0x0040000#26 = .rdGprobe := by decide
theorem test_decode_wrGprobe : decode 0x1040038#26 = .wrGprobe 0x0038#16 := by decide
theorem test_decode_rdBuf : decode 0x0240000#26 = .rdBuf 4#5 := by decide
theorem test_decode_wrBuf : decode 0x13F0030#26 = .wrBuf 31#5 0x0030#16 := by decide
theorem test_decode_wrBuf_bits : decode 0b01001000010000000000101110#26 = .wrBuf 1#5 0x002E#16 := by
  decide
theorem test_decode_rdBufterm : decode 0x0400000#26 = .rdBufterm := by decide
theorem test_decode_wrBufterm : decode 0x1400038#26 = .wrBufterm 0x0038#16 := by decide
theorem test_decode_rdRsvd : decode 0x0410000#26 = .rdRsvd 0x41#8 := by decide
theorem test_decode_rdRsvd_high : decode 0x0E00000#26 = .rdRsvd 0xE0#8 := by decide
theorem test_decode_wrRsvd : decode 0x11F1234#26 = .wrRsvd 0x1F#8 0x1234#16 := by decide
theorem test_decode_tick : decode 0x2000000#26 = .tick := by decide
theorem test_decode_reset : decode 0x3000000#26 = .reset := by decide
theorem test_decode_rsvdEvent_tick : decode 0x2010000#26 = .rsvdEvent 0#1 0x010000#24 := by decide
theorem test_decode_rsvdEvent_reset : decode 0x3FFFFFF#26 = .rsvdEvent 1#1 0xFFFFFF#24 := by decide

theorem test_encode_wrStc : encode (.wrStc 0x03E7#16) = 0x10203E7#26 := by decide
theorem test_encode_wrBuf : encode (.wrBuf 0#5 0x0038#16) = 0x1200038#26 := by decide
theorem test_encode_reset : encode .reset = 0x3000000#26 := by decide

/-- The specific rows of the opcode table fix disjoint words (R76). -/
theorem test_table_disjoint :
    (opTable.filter fun r => !r.fallback).Pairwise fun r q =>
      (r.pattern ^^^ q.pattern) &&& r.mask &&& q.mask ≠ 0#26 := by decide

theorem test_tableWord : decodeTableWord 32 0x13F0030 = some (.wrBuf 31#5 0x0030#16) := by decide
theorem test_tableWord_tooLong : decodeTableWord 32 0x4000000 = none := by decide

/-- A word placed where the next event is taken from is the event the next step runs. -/
theorem test_fetch_wrStc :
    (got (step (State.reset.withFetchWord 32 0x10203E7))).map (·.stc) = some 0x03E7#16 := by decide
/-- RSVD_EVENT is refused by name (R80). -/
theorem test_fetch_rsvdEvent :
    got (step (State.reset.withFetchWord 32 0x2000001)) = none := by decide

/-! ### Glyphs (2.1) -/

theorem test_glyph_digits :
    ([0x30#8, 0x31#8, 0x32#8, 0x33#8, 0x34#8, 0x35#8, 0x36#8, 0x37#8, 0x38#8, 0x39#8].map glyphFor) =
      [0x3F#8, 0x06#8, 0x5B#8, 0x4F#8, 0x66#8, 0x6D#8, 0x7D#8, 0x07#8, 0x7F#8, 0x6F#8] := by decide
theorem test_glyph_minus : glyphFor 0x2D#8 = 0x40#8 := by decide
theorem test_glyph_blank :
    ([0x2E#8, 0x00#8, 0x20#8, 0x2C#8, 0x2F#8, 0x3A#8, 0x41#8, 0x80#8, 0xB8#8, 0xFF#8].map glyphFor).all
      (· == 0x00#8) = true := by decide
theorem test_glyph_table_ok : disp7Glyphs.ok = true := by decide

/-! ### TICK (2.2) -/

/-- T1: "-2". -/
theorem test_tick_minus : tickResult (st [0x2D#8, 0x32#8] 0#5 0#3 5#16 true) =
    some (0x40#8, 0x01#8, 1#5, 1#3, 6#16) := by decide
/-- T1, the write list of R101's example. -/
theorem test_tick_writes :
    (got (exec .tick (st [0x2D#8, 0x32#8] 0#5 0#3 5#16 true))).map (·.writes) =
      some [.setSegments 0x00#8, .selectDigit 0#3, .setSegments 0x40#8] := by decide
/-- T2 and T3: "8.", the dot folds and then renders blank. -/
theorem test_tick_fold : tickResult (st [0x38#8, 0x2E#8] 0#5 0#3 0#16 true) =
    some (0xFF#8, 0x01#8, 1#5, 0#3, 1#16) ∧
    tickResult (st [0x38#8, 0x2E#8] 1#5 0#3 1#16 true) =
      some (0x00#8, 0x01#8, 0#5, 0#3, 2#16) := by decide
/-- T5 and T6: "123456789", DC wraps from 7 to 0. -/
theorem test_tick_wrap : tickResult (st text123456789 7#5 7#3 0#16 true) =
    some (0x7F#8, 0x80#8, 8#5, 0#3, 1#16) ∧
    tickResult (st text123456789 8#5 0#3 0#16 true) =
      some (0x6F#8, 0x01#8, 0#5, 0#3, 1#16) := by decide
/-- T7: 32 characters, the hardwired terminator ends the text. -/
theorem test_tick_full : tickResult (st (List.replicate 31 0x30#8 ++ [0x39#8]) 31#5 7#3 31#16 true) =
    some (0x6F#8, 0x80#8, 0#5, 0#3, 32#16) := by decide
/-- T8: STC wraps. -/
theorem test_tick_stc_wrap : tickResult (st [0x37#8] 0#5 0#3 0xFFFF#16 true) =
    some (0x07#8, 0x01#8, 0#5, 0#3, 0x0000#16) := by decide
/-- T9: conflict C2, a dot after '-'. -/
theorem test_tick_minus_dot : tickResult (st [0x2D#8, 0x2E#8, 0x35#8] 0#5 0#3 0#16 true) =
    some (0xC0#8, 0x01#8, 1#5, 0#3, 1#16) := by decide
/-- T10 and T11: a leading dot, and the first of two dots. -/
theorem test_tick_dots :
    tickResult (st [0x2E#8, 0x38#8] 0#5 0#3 0#16 true) = some (0x00#8, 0x01#8, 1#5, 1#3, 1#16) ∧
    tickResult (st [0x38#8, 0x2E#8, 0x2E#8, 0x38#8] 1#5 0#3 1#16 true) =
      some (0x80#8, 0x01#8, 2#5, 0#3, 2#16) := by decide
/-- T12 and T13: the empty text, and a terminator at 0 stepped over. -/
theorem test_tick_empty : tickResult (st [] 0#5 0#3 0#16 true) =
    some (0x00#8, 0x01#8, 0#5, 0#3, 1#16) ∧
    tickResult (st [0x00#8, 0x35#8] 0#5 0#3 0#16 true) =
      some (0x00#8, 0x01#8, 1#5, 1#3, 1#16) := by decide
/-- T15: dropped while EN = 0. -/
theorem test_tick_dropped : got (exec .tick (st [0x38#8] 3#5 2#3 7#16 false)) =
    some (st [0x38#8] 3#5 2#3 7#16 false) := by decide
/-- The full cycle of "23.5061.00" (W2). -/
theorem test_shown_sample : (st textSample 0#5 0#3 0#16 true).shown 10 =
    [(0#3, 0x5B#8), (1#3, 0xCF#8), (1#3, 0x00#8), (2#3, 0x6D#8), (3#3, 0x3F#8), (4#3, 0x7D#8),
     (5#3, 0x86#8), (5#3, 0x00#8), (6#3, 0x3F#8), (7#3, 0x3F#8)] := by decide
/-- "8." closes after 2 ticks; its digit is energized on both and lit on one (R113, R119). -/
theorem test_shown_fold : ((st [0x38#8, 0x2E#8] 0#5 0#3 0#16 true).ticks 2).cc = 0#5 ∧
    (st [0x38#8, 0x2E#8] 0#5 0#3 0#16 true).litTicks 0#3 2 = 1 ∧
    (st [0x38#8, 0x2E#8] 0#5 0#3 0#16 true).energizedTicks 0#3 2 = 2 := by decide
/-- W4: from CC = 5 of "12345678" the first terminator is at 8. -/
theorem test_terminatorIndex : (st (text123456789.take 8) 5#5 5#3 0#16 true).terminatorIndex = 8 := by
  decide

/-! ### Bus operations (2.3) -/

theorem test_rdCtrl : readResult .rdCtrl (st [] 0#5 0#3 0#16 true) = some 0x0001#16 := by decide
/-- B2. -/
theorem test_wrCtrl_all : got (exec (.wrCtrl 0x0007#16) (st [0x38#8] 4#5 2#3 9#16 false)) =
    some (st [] 0#5 0#3 9#16 true) := by decide
/-- B4: CLR alone clears EN and keeps the cursors. -/
theorem test_wrCtrl_clr : got (exec (.wrCtrl 0x0004#16) (st [0x31#8, 0x32#8] 4#5 2#3 0#16 true)) =
    some (st [] 4#5 2#3 0#16 false) := by decide
/-- B6: the reserved bits are ignored. -/
theorem test_wrCtrl_reserved : got (exec (.wrCtrl 0xFFF9#16) (st [0x38#8] 4#5 2#3 0#16 true)) =
    some (st [0x38#8] 4#5 2#3 0#16 true) := by decide
/-- B7 and B8. -/
theorem test_rdStatus : readResult .rdStatus (st [] 5#5 4#3 0#16 true) = some 0x0185#16 ∧
    readResult .rdStatus (st [] 31#5 7#3 0#16 false) = some 0x00FF#16 := by decide
/-- B9. -/
theorem test_wrStatus : got (exec (.wrStatus 0xFFFF#16) (st [] 5#5 4#3 0#16 true)) =
    some (st [] 5#5 4#3 0#16 true) := by decide
/-- B10. -/
theorem test_rdStc : readResult .rdStc (st [] 0#5 0#3 0x03E7#16 false) = some 0x03E7#16 := by decide
/-- B11. -/
theorem test_wrStc : got (exec (.wrStc 0x03E7#16) (st [] 1#5 2#3 5#16 true)) =
    some (st [] 1#5 2#3 0x03E7#16 true) := by decide
/-- B12: after the first tick of the startup pattern. -/
theorem test_rdDisp : ((got (exec .tick (st text8888 0#5 0#3 0#16 true))).bind (readResult .rdDisp)) =
    some 0x01FF#16 := by decide
/-- B14. -/
theorem test_wrDisp : ((got (exec .tick (st text8888 0#5 0#3 0#16 true))).bind fun t =>
    (got (exec (.wrDisp 0x0000#16) t)).bind (readResult .rdDisp)) = some 0x01FF#16 := by decide
/-- B15 and B16. -/
theorem test_gprobe : ((got (exec (.wrGprobe 0x0035#16) State.reset)).bind (readResult .rdGprobe)) =
    some 0x6D35#16 ∧
    ((got (exec (.wrGprobe 0x1238#16) State.reset)).bind (readResult .rdGprobe)) =
      some 0x7F38#16 := by decide
/-- B17 and B18. -/
theorem test_buf : ((got (exec (.wrBuf 3#5 0x002E#16) State.reset)).bind (readResult (.rdBuf 3#5))) =
    some 0x002E#16 ∧
    ((got (exec (.wrBuf 31#5 0x1230#16) State.reset)).bind (readResult (.rdBuf 31#5))) =
      some 0x0030#16 := by decide
/-- Writing 0x00 places a terminator and takes the entry out (R141). -/
theorem test_wrBuf_zero : (got (exec (.wrBuf 0#5 0xFF00#16) (st [0x38#8, 0x39#8] 0#5 0#3 0#16 false))).map
    (·.buf) = some [(1, 0x39#8)] := by decide
/-- B19. -/
theorem test_bufterm : ((got (exec (.wrBufterm 0x0038#16) State.reset)).bind
    (readResult .rdBufterm)) = some 0x0000#16 := by decide
/-- B20. -/
theorem test_rdRsvd : readResult (.rdRsvd 0x05#8) (st text8888 1#5 1#3 9#16 true) = some 0x0000#16 ∧
    readResult (.rdRsvd 0xFF#8) (st text8888 1#5 1#3 9#16 true) = some 0x0000#16 := by decide
/-- B21. -/
theorem test_wrRsvd : got (exec (.wrRsvd 0xFF#8 0x1234#16) (st text8888 1#5 1#3 9#16 true)) =
    some (st text8888 1#5 1#3 9#16 true) := by decide

/-! ### RESET (2.4) -/

/-- X1. -/
theorem test_reset : got (exec .reset { st textSample 9#5 7#3 0x1234#16 true with
    segOut := 0x3F#8, digOut := 0x80#8, gp := 0x35#8, ph := .p2, digPin := 0x80#8 }) =
    some State.reset := by decide
/-- X4: the tick and the write of the same cycle are discarded. -/
theorem test_reset_cycle : got (step { st text8888 3#5 1#3 9#16 true with
    trace := [Cycle.ofPorts true true (some ⟨true, 0x00#8, 0x0003#16⟩)] }) = some State.reset := by decide
/-- X5: the data of a read in the cycle before is on the bus in the RESET cycle, and gone after it. -/
theorem test_reset_read :
    (got (step { st [] 0#5 0#3 7#16 false with trace := [Cycle.ofInstr .rdStc, Cycle.ofInstr .reset] })).map
      (fun s => (s.busRdata, (got (step s)).map (·.busRvalid))) =
    some (some 7#16, some false) := by decide

/-! ### Same-cycle events (2.5) -/

/-- S1: the tick's increment is overwritten. -/
theorem test_same_wrStc : (got (step { st [0x38#8, 0x38#8] 0#5 0#3 0#16 true with
    trace := [Cycle.ofPorts false true (some ⟨true, 0x02#8, 0x0100#16⟩)] })).map
      (fun s => (s.cc, s.dc, s.stc)) = some (1#5, 1#3, 0x0100#16) := by decide
/-- S2: the read includes the tick of its cycle. -/
theorem test_same_rdStc : (got (step { st [0x38#8, 0x38#8] 1#5 1#3 0x0100#16 true with
    trace := [Cycle.ofPorts false true (some ⟨false, 0x02#8, 0x0000#16⟩)] })).bind (·.rdata) =
      some 0x0101#16 := by decide
/-- S4: a resume in the tick's cycle drops the tick. -/
theorem test_same_resume : (got (step { st [] 2#5 1#3 7#16 false with
    trace := [Cycle.ofPorts false true (some ⟨true, 0x00#8, 0x0003#16⟩)] })).map
      (fun s => (s.cc, s.dc, s.stc, s.en)) = some (0#5, 0#3, 7#16, true) := by decide
/-- S6: the tick reads the old cell. -/
theorem test_same_wrBuf : (got (step { st [0x38#8, 0x38#8] 0#5 0#3 0#16 true with
    trace := [Cycle.ofPorts false true (some ⟨true, 0x21#8, 0x002E#16⟩)] })).map
      (fun s => (s.segOut, s.dc, s.cell 1)) = some (0x7F#8, 1#3, 0x2E#8) := by decide

/-! ### The pin sequencer (2.7) -/

/-- Cycle 1. -/
theorem test_pins_tick : (got (step { st [0x2D#8, 0x32#8] 0#5 0#3 0#16 true with
    trace := [Cycle.ofInstr .tick] })).map (fun s => (s.ph, s.segPin, s.digPin)) =
      some (.p1, 0x00#8, 0x00#8) := by decide
/-- Cycles 2 and 3, from the state cycle 1 leaves. -/
theorem test_pins_idle :
    let s := { st [0x2D#8, 0x32#8] 1#5 1#3 1#16 true with segOut := 0x40#8, digOut := 0x01#8, ph := .p1 }
    (got (step s)).map (fun s => (s.ph, s.segPin, s.digPin)) = some (.p2, 0x00#8, 0x01#8) ∧
    ((got (step s)).bind fun t => (got (step t)).map fun u => (u.ph, u.segPin, u.digPin)) =
      some (.idle, 0x40#8, 0x01#8) := by decide
/-- Cycle 12: a dropped tick leaves the pins. -/
theorem test_pins_dropped :
    let s := { st [] 0#5 0#3 4#16 false with
      segOut := 0x5B#8, digOut := 0x02#8, segPin := 0x5B#8, digPin := 0x02#8 }
    got (step { s with trace := [Cycle.ofInstr .tick] }) = some s := by decide
/-- With SEG_ACTIVE_LOW = 1, 0x40 shows as 0xBF. -/
theorem test_pins_activeLow :
    { State.reset with segPin := 0x40#8 }.segO { PinParams.straight with segActiveLow := true } =
      0xBF#8 := by decide

/-! ### Host sequences and texts -/

theorem test_startup_wellFormed : wellFormedText startupText = true ∧
    wellFormedText textSample = true := by decide
theorem test_text_illFormed : wellFormedText [0x2E#8, 0x38#8] = false ∧
    wellFormedText [0x38#8, 0x2E#8, 0x2E#8] = false ∧ wellFormedText text123456789 = false ∧
    wellFormedText [0x41#8] = false := by decide
/-- W3: the text of error code -2. -/
theorem test_errorText (p : HostParams) : errorText p (-2) = [0x2D#8, 0x32#8] := rfl
/-- The sign of a positive code is an argument (93_implementation_defined.md). -/
theorem test_errorText_positive (p : HostParams) : errorText p 2 = p.positiveSign ++ [0x32#8] := rfl
theorem test_decimalText : decimalText 905 = [0x39#8, 0x30#8, 0x35#8] := by decide
/-- P1, lines 2 to 20. -/
theorem test_boot_words (p : HostParams) (h : p.refreshThreshold = 1000#16) :
    (boot p).map encode =
      [0x1000004#26, 0x1200038#26, 0x121002E#26, 0x1220038#26, 0x123002E#26, 0x1240038#26, 0x125002E#26,
       0x1260038#26, 0x127002E#26, 0x1280038#26, 0x129002E#26, 0x12A0038#26, 0x12B002E#26, 0x12C0038#26,
       0x12D002E#26, 0x12E0038#26, 0x12F002E#26, 0x10203E7#26, 0x1000003#26] := by
  simp only [boot, h]; decide
theorem test_dutiful (p : HostParams) : dutiful false (boot p) = true := by
  simp only [boot]; rfl
theorem test_undutiful : dutiful true [.wrBuf 0#5 0x38#16] = false ∧
    dutiful false [.wrCtrl 0x0001#16] = false := by decide
theorem test_tickGap : tickGapOk 0 [Cycle.ofInstr .tick, Cycle.idle, Cycle.idle, Cycle.ofInstr .tick] = true ∧
    tickGapOk 0 [Cycle.ofInstr .tick, Cycle.idle, Cycle.ofInstr .tick] = false := by decide

/-! ### The trace syntax (R82, R84) -/

/-- `wr buf[1], '.'` -/
theorem test_asm_wrBuf :
    readLine ['w', 'r', ' ', 'b', 'u', 'f', '[', '1', ']', ',', ' ', '\'', '.', '\''] =
      some [Cycle.ofWord 0x121002E#26] := by decide
/-- `rd @0x20` and `rd buf[0]` are the same word. -/
theorem test_asm_at : readLine ['r', 'd', ' ', '@', '0', 'x', '2', '0'] =
    readLine ['r', 'd', ' ', 'b', 'u', 'f', '[', '0', ']'] ∧
    readLine ['r', 'd', ' ', '@', '0', 'x', '2', '0'] = some [Cycle.ofWord 0x0200000#26] := by decide
/-- `tick | wr ctrl, 0x0000 ; stop` -/
theorem test_asm_bar :
    readLine ['t', 'i', 'c', 'k', ' ', '|', ' ', 'w', 'r', ' ', 'c', 't', 'r', 'l', ',', ' ', '0', 'x',
      '0', '0', '0', '0', ' ', ';', ' ', 's'] =
      some [Cycle.ofPorts false true (some ⟨true, 0x00#8, 0x0000#16⟩)] := by decide
/-- `wr ctrl, 0x0000 | tick` is out of R57's order and spells no cycle. -/
theorem test_asm_order :
    readLine ['s', 'u', 's', 'p', 'e', 'n', 'd', '|', 't', 'i', 'c', 'k'] = none := by decide
/-- A `;` inside a character literal starts no comment (log 13, the model's reading). -/
theorem test_asm_literal :
    readLine ['w', 'r', ' ', 'g', 'p', 'r', 'o', 'b', 'e', ',', ' ', '\'', ';', '\''] =
      some [Cycle.ofWord 0x104003B#26] := by decide
/-- `loadtext "-2"` is two cycles, `idle` an empty one, `setstc 999` the word 0x10203E7. -/
theorem test_asm_pseudo :
    readLine ['l', 'o', 'a', 'd', 't', 'e', 'x', 't', ' ', '"', '-', '2', '"'] =
      some [Cycle.ofWord 0x120002D#26, Cycle.ofWord 0x1210032#26] ∧
    readLine ['i', 'd', 'l', 'e'] = some [Cycle.idle] ∧
    readLine ['s', 'e', 't', 's', 't', 'c', ' ', '9', '9', '9'] =
      some [Cycle.ofWord 0x10203E7#26] := by decide

/-! ### Witnesses: for each statement with hypotheses, states and operands that meet them together -/

/-- An outcome with a next state is a next state. -/
theorem next_of_got {o : Host.Outcome State Fault Refusal} (h : (got o).isSome = true) :
    ∃ t, o = .next t := by
  cases o with
  | next t => exact ⟨t, rfl⟩
  | fault r => cases r
  | refused r => cases h

/-- A running display, in the middle of a text. -/
def live : State := { st textSample 3#5 2#3 7#16 true with
  segOut := 0x5B#8, digOut := 0x02#8, segPin := 0x5B#8, digPin := 0x02#8 }
/-- The same display suspended. -/
def held : State := { live with en := false }
/-- The running display with these cycles before it. -/
def before (cs : List Cycle) : State := { live with trace := cs }
/-- At the last cell of a full buffer. -/
def full : State := st (List.replicate 32 0x38#8) 31#5 7#3 0xFFFF#16 true

theorem witness_DecodeOfEncodeIsIdentity : (Instr.wrBuf 31#5 0xFFFF#16).wellFormed = true ∧
    (Instr.rdRsvd 0x05#8).wellFormed = true ∧ (Instr.wrRsvd 0xFF#8 0xFFFF#16).wellFormed = true ∧
    (Instr.rsvdEvent 1#1 1#24).wellFormed = true ∧ Instr.reset.wellFormed = true := by decide
theorem witness_EncodeOfDecodeIsTheWord : (decode 0x3FFFFFF#26).isRead = false ∧
    (decode 0x0FFFFFF#26).isRead = true := by decide
theorem witness_DecoderFollowsTheOpcodeTable :
    (opTable.find? fun r => !r.fallback && r.matchesWord 0x13F0000#26).map (·.row) = some .wrBuf ∧
    opTable.find? (fun r => !r.fallback && r.matchesWord 0x1410000#26) = none ∧
    opTable.find? (fun r => !r.fallback && r.matchesWord 0x2000001#26) = none := by decide
theorem witness_ReadsIgnoreTheDataField : (Instr.rdRsvd 0xFF#8).isRead = true := by decide
theorem witness_AssembledLinePresentsItsWords : (Cycle.ofWords [0x2000000#26, 0x1000000#26]).isSome = true ∧
    (Cycle.ofWords [0x3000000#26, 0x2000000#26, 0x0010000#26]).isSome = true := by decide
theorem witness_ReservedEventIsRefused : OpWord.kind 0x2000001#26 = 0b10#2 ∧
    OpWord.payload 0x2000001#26 ≠ 0#24 ∧ OpWord.kind 0x3FFFFFF#26 = 0b11#2 ∧
    OpWord.payload 0x3FFFFFF#26 ≠ 0#24 := by decide
theorem witness_StepRunsTheDecodedEvent : (Instr.wrStc 9#16).wellFormed = true ∧
    (before [Cycle.ofInstr (.wrStc 9#16), Cycle.idle]).trace = [Cycle.ofInstr (.wrStc 9#16), Cycle.idle] ∧
    (before [Cycle.ofWord 0x10203E7#26]).trace = [Cycle.ofWord 0x10203E7#26] ∧
    0x3FFFFFF < 2 ^ 26 := by decide
theorem witness_EventsOfACycle_reset :
    (before [Cycle.ofPorts true true (some ⟨false, 0x02#8, 0#16⟩)]).trace =
      [Cycle.ofPorts true true (some ⟨false, 0x02#8, 0#16⟩)] := rfl
theorem witness_EventsOfACycle_write :
    (before [Cycle.ofPorts false true (some ⟨true, bufAddr 4#5, 0x39#16⟩)]).trace =
      [Cycle.ofPorts false true (some ⟨true, bufAddr 4#5, 0x39#16⟩)] ∧
    live.en = true ∧ held.en = false ∧ Memory.wf live.buf = true ∧
    (0x0007#16 : Word).getLsbD 1 = true := by decide
theorem witness_ReadDataComesInTheNextCycle : (⟨false, 0x02#8, 0#16⟩ : BusAccess).we = false ∧
    (before [Cycle.ofPorts false true (some ⟨false, 0x02#8, 0#16⟩)]).trace =
      [Cycle.ofPorts false true (some ⟨false, 0x02#8, 0#16⟩)] ∧
    (got (step (before [Cycle.ofPorts false true none]))).isSome = true := by decide
theorem witness_EveryRealCycleCompletes : (Cycle.ofPorts true true none).real = true ∧
    Cycle.idle.real = true ∧ (Cycle.ofWord 0x2000001#26).real = false ∧
    (Cycle.ofWord 0x3000001#26).real = false := by decide
theorem witness_EveryEventCompletes : Instr.tick.isRsvdEvent = false ∧
    (Instr.wrRsvd 0x05#8 0#16).isRsvdEvent = false := by decide
theorem witness_StepKeepsTheInvariant : live.inv = true ∧
    ∃ t, step (before [Cycle.ofInstr .tick]) = .next t :=
  ⟨by decide, next_of_got (by decide)⟩
theorem witness_InvariantsAfterEveryEvent : (∃ d : BitVec 3, live.digOut = 1#8 <<< d.toNat) ∧
    (∃ t, exec .tick live = .next t) ∧ (∃ t, execAll [.reset, .wrCtrl 0x0003#16, .tick] live = .next t) ∧
    live.en = true ∧ Instr.reset ∉ [Instr.rdStc] ∧ ∃ t, execAll [.tick, .rdStc] live = .next t :=
  ⟨⟨1#3, by decide⟩, next_of_got (by decide), next_of_got (by decide), by decide, by decide,
    next_of_got (by decide)⟩
theorem witness_NoGhostingAlongAnyRun : live.pinsCoherent = true ∧
    (got (runSteps 3 (before [Cycle.ofInstr .tick]))).map (fun t => t.segPin != 0x00#8) =
      some true := by decide
theorem witness_DarkUntilResumed : (0xFFFE#16 : Word).getLsbD 0 = false ∧
    ∃ t, execAll [.reset, .tick, .wrCtrl 0xFFFE#16, .tick] live = .next t :=
  ⟨by decide, next_of_got (by decide)⟩
theorem witness_TickRunsTheSevenSteps : live.en = true ∧ held.en = false ∧ full.en = true ∧
    full.nextChar = 0x00#8 := by decide
theorem witness_DroppedTickIsAnIdleCycle : held.en = false := by decide
theorem witness_NextCharacter_dot : let s := st textSample 1#5 1#3 0#16 true
    s.en = true ∧ s.nextChar = 0x2E#8 ∧ ∃ t, exec .tick s = .next t :=
  ⟨by decide, by decide, next_of_got (by decide)⟩
theorem witness_NextCharacter_end : full.en = true ∧ full.nextChar = 0x00#8 ∧
    ∃ t, exec .tick full = .next t :=
  ⟨by decide, by decide, next_of_got (by decide)⟩
theorem witness_NextCharacter_other : let s := { full with cc := 30#5 }
    s.en = true ∧ s.nextChar ≠ 0x2E#8 ∧ s.nextChar ≠ 0x00#8 ∧ ∃ t, exec .tick s = .next t :=
  ⟨by decide, by decide, by decide, next_of_got (by decide)⟩
theorem witness_GlyphTableOfTheSpec : (∀ c ∈ [0x2F#8, 0x3A#8, 0x2C#8, 0x2E#8, 0xFF#8],
    ¬ (0x30#8 ≤ c ∧ c ≤ 0x39#8) ∧ c ≠ 0x2D#8) ∧ disp7Glyphs.ok = true := by decide
theorem witness_DisplayCycleCloses : full.en = true ∧ full.cc.toNat < 32 ∧ full.cell 32 = 0x00#8 ∧
    (∀ k, full.cc.toNat < k → k < 32 → full.cell k ≠ 0x00#8) ∧
    (∀ i ∈ [Instr.tick, .rdStc], i = .tick ∨ i.isRead = true) ∧
    full.cc.toNat + [Instr.tick, .rdStc].count .tick = 32 :=
  ⟨by decide, by decide, by decide, fun k h1 h2 => by
    have h : full.cc.toNat = 31 := by decide
    omega, by decide, by decide⟩
theorem witness_DisplayCycleCloses_text : textSample.length ≤ 32 ∧ (∀ c ∈ textSample, c ≠ 0x00#8) ∧
    ([] : Text).length ≤ 32 ∧ [Instr.tick].count .tick = max 1 ([] : Text).length := by decide
theorem witness_SlotsAreShownOnTheirDigits : 1 ≤ textSample.length ∧ textSample.length ≤ 32 ∧
    textSample.all textChar = true ∧ textSample.head? ≠ some 0x2E#8 ∧ noDoubleDot textSample = true ∧
    textSample.countP (· != 0x2E#8) = 8 ∧ text123456789.countP (· != 0x2E#8) = 9 ∧
    text123456789.all textChar = true ∧ noDoubleDot text123456789 = true ∧
    ∃ m, execAll (clearbuf ++ loadtext textSample ++ resume) live = .next m :=
  ⟨by decide, by decide, by decide, by decide, by decide, by decide, by decide, by decide, by decide,
    next_of_got (by decide)⟩
theorem witness_MalformedTextsAreRendered :
    let s := st [0x2E#8, 0x38#8] 0#5 7#3 0#16 true
    let r := st [0x2E#8, 0x2E#8] 0#5 7#3 0#16 true
    (s.en = true ∧ s.currentChar = 0x2E#8 ∧ s.nextChar ≠ 0x2E#8 ∧ s.nextChar ≠ 0x00#8) ∧
    (r.en = true ∧ r.currentChar = 0x2E#8 ∧ r.nextChar = 0x2E#8) := by decide
theorem witness_TickReadsOnlyWhatTheRulesName : let s' := { live with gp := 0x35#8, segOut := 0x00#8 }
    live.en = s'.en ∧ live.cc = s'.cc ∧ live.dc = s'.dc ∧ live.stc = s'.stc ∧
    live.currentChar = s'.currentChar ∧ live.nextChar = s'.nextChar ∧
    (∃ t, exec .tick live = .next t) ∧ ∃ t, exec .tick s' = .next t :=
  ⟨by decide, by decide, by decide, by decide, by decide, by decide, next_of_got (by decide),
    next_of_got (by decide)⟩
theorem witness_StcCountsExecutedTicks : (∀ i ∈ [Instr.tick, .rdStatus], i = .tick ∨ i.isRead = true) ∧
    (∃ t, execAll [.tick, .rdStatus] full = .next t) ∧ ∃ t, execAll [.tick, .rdStatus] held = .next t :=
  ⟨by decide, next_of_got (by decide), next_of_got (by decide)⟩
theorem witness_ShownIsWhatTicksEmit : live.en = true ∧ full.en = true := by decide
theorem witness_RdStcReturnsTheCounter : live.en = true ∧
    (before [Cycle.ofPorts false true (some ⟨false, 0x02#8, 0#16⟩)]).trace =
      [Cycle.ofPorts false true (some ⟨false, 0x02#8, 0#16⟩)] := by decide
theorem witness_WrStcSetsTheCounter :
    (before [Cycle.ofPorts false true (some ⟨true, 0x02#8, 0xFFFF#16⟩)]).trace =
      [Cycle.ofPorts false true (some ⟨true, 0x02#8, 0xFFFF#16⟩)] := by decide
theorem witness_RdRsvdReturnsZero : ∀ a ∈ [0x05#8, 0x1F#8, 0x41#8, 0xFF#8],
    (0x05#8 ≤ a ∧ a ≤ 0x1F#8) ∨ (0x41#8 : Addr) ≤ a := by decide
theorem witness_IgnoredWritesChangeNothing : ∀ a ∈ [0x05#8, 0x1F#8, 0x41#8, 0xFF#8],
    (0x05#8 ≤ a ∧ a ≤ 0x1F#8) ∨ (0x41#8 : Addr) ≤ a := by decide
theorem witness_RdBufReturnsTheCell : (0x0004#16 : Word).getLsbD 2 = true := by decide
theorem witness_RdGprobeReturnsGlyphAndCode : ({ live with gp := 0x2E#8 } : State).gp = 0x2E#8 ∧
    State.reset.gp = 0x00#8 := by decide
theorem witness_ReadsHaveNoSideEffect : Instr.rdStc.isRead = true ∧ Instr.rdDisp.isRead = true ∧
    (∃ t, exec .rdStc live = .next t) ∧ (0x0002#16 : Word).getLsbD 1 = true ∧
    ∃ t, exec (.wrCtrl 0x0002#16) live = .next t :=
  ⟨rfl, rfl, next_of_got (by decide), by decide, next_of_got (by decide)⟩
theorem witness_WrBufStoresTheCharacter : Memory.wf live.buf = true ∧ Memory.wf full.buf = true := by
  decide
theorem witness_FrameOfTick : ∃ t, exec .tick live = .next t := next_of_got (by decide)
theorem witness_FrameOfBusWrites : (Instr.wrCtrl 0x0003#16).isWrite = true ∧
    (∃ t, exec (.wrCtrl 0x0003#16) live = .next t) ∧ (Instr.wrBuf 31#5 0x30#16).isWrite = true ∧
    ∃ t, exec (.wrBuf 31#5 0x30#16) live = .next t :=
  ⟨rfl, next_of_got (by decide), rfl, next_of_got (by decide)⟩
theorem witness_WritersOfEachElement : (got (exec .reset live)).map (fun t =>
    (t.en != live.en, t.cc != live.cc, t.stc != live.stc, t.segOut != live.segOut,
      t.cell 3 != live.cell 3, t.digPin != live.digPin)) =
    some (true, true, true, true, true, true) ∧
    (got (exec (.wrGprobe 0x35#16) live)).map (fun t => t.gp != live.gp) = some true := by decide
theorem witness_SuspensionStopsRendering : (0xFFFE#16 : Word).getLsbD 0 = false ∧
    ∃ m t, execAll suspend live = .next m ∧ m.writes = [] ∧
      execAll [.tick, .wrCtrl 0xFFFE#16, .tick] m = .next t :=
  ⟨by decide, _, _, rfl, rfl, rfl⟩
theorem witness_LoadtextWritesTheText : (List.replicate 32 0x30#8 : Text).length ≤ 32 ∧
    ([] : Text).length ≤ 32 ∧ Memory.wf live.buf = true := by decide
/-- A host's parameters: one sample a 1000 ticks, a retry after 100, and a format of five characters. -/
def someHost : HostParams := ⟨1000#16, 900#16, fun _ => textSample.take 5, [0x30#8], []⟩
/-- The view of a host that has booted, shows a sample, boots again without a RESET, and shows another. -/
def someView : HostView := ⟨true, true, none, none, [.sample (.failed (-2)), .boot, .sample (.failed 905)]⟩
theorem witness_BootPreparesTheFirstRefresh : 0#16 < someHost.refreshThreshold := by decide
theorem witness_Boot_view :
    let h := HostView.reset [.boot, .sample (.failed (-2))]
    let g := { someView with rewrites := someView.rewrites.tail }
    (h.rewrites = .boot :: [.sample (.failed (-2))] ∧ h.en = false) ∧
    (g.rewrites = .boot :: [.sample (.failed 905)] ∧ g.en = true ∧ g.booted = true) := by decide
theorem witness_RefreshShowsTheSample : (sampleText someHost (.good (47 / 2) 61)).length ≤ 32 ∧
    (sampleText someHost (.failed (-2))).length ≤ 32 ∧ (sampleText someHost (.failed 0)).length ≤ 32 :=
  ⟨by simp [sampleText, someHost, textSample], by decide, by decide⟩
theorem witness_Refresh_view : wellFormedText (sampleText someHost (.failed (-2))) = true ∧
    someView.booted = true ∧
    someView.rewrites = .sample (.failed (-2)) :: [.boot, .sample (.failed 905)] := by decide
theorem witness_DutifulHostRewritesOnlyWhileSuspended :
    dutiful live.en ([] ++ Instr.tick :: [Instr.wrCtrl 0x0000#16, .wrBuf 0#5 0x38#16]) = true ∧
    live.en = true ∧ Instr.tick ≠ .reset ∧ (∃ m, execAll [] live = .next m) ∧
    ∃ n, exec .tick live = .next n :=
  ⟨by decide, by decide, by decide, ⟨_, rfl⟩, next_of_got (by decide)⟩
theorem witness_DutifulHost_view : someView.agrees live = true ∧
    (∃ g, someView.run someHost (refresh someHost (.failed (-2))) = some g) ∧
    (got (execAll (refresh someHost (.failed (-2))) live)).map (·.en) = some true :=
  ⟨by decide, ⟨_, by rfl⟩, by decide⟩
/-- What R160 asks beyond the duties on EN: a wrong counter value, a write into a buffer that was not
cleared, ill-formed text, a sample before BOOT, and the accesses of D9 and D30 are refused (R160, R165,
R167, R172). -/
theorem test_hostView :
    let writes := [Instr.wrBuf 0#5 0x38#16]
    someView.run someHost (suspend ++ clearbuf ++ writes ++ setstc 0#16 ++ resume) = none ∧
    someView.run someHost (suspend ++ writes) = none ∧
    someView.run someHost (suspend ++ clearbuf ++ [.wrBuf 0#5 0x2E#16] ++ setstc 900#16 ++ resume) = none ∧
    someView.run someHost (suspend ++ clearbuf ++ [.wrBuf 1#5 0x38#16] ++ setstc 900#16 ++ resume) = none ∧
    (HostView.reset [.sample (.failed (-2))]).run someHost (writes ++ setstc 900#16 ++ resume) = none ∧
    [Instr.rdRsvd 0x05#8, .wrRsvd 0xFF#8 0#16, .wrStatus 0#16, .wrDisp 0#16, .wrBufterm 0#16].all
      (fun i => someView.next someHost i == none) = true ∧
    (someView.run someHost (suspend ++ clearbuf ++ writes ++ setstc 900#16 ++ resume)).isSome = true := by
  decide
theorem witness_PinSequencer (p : Phase) : ∃ s : State, s.ph = p ∧ s.en = true ∧
    s.trace = [Cycle.ofPorts false false none] ∧ s.pinsCoherent = true ∧
    (∃ t, step s = .next t) ∧ (∃ t, step { s with trace := [Cycle.ofPorts true true none] } = .next t) ∧
    ∃ t, step { s with trace := [Cycle.ofPorts false true none] } = .next t := by
  refine ⟨{ live with
    ph := p
    segPin := if p = .idle then 0x5B#8 else 0x00#8
    trace := [Cycle.ofPorts false false none] }, rfl, rfl, rfl, ?_, ?_, ?_, ?_⟩
  · cases p <;> decide
  · exact next_of_got (by cases p <;> decide)
  · exact next_of_got (by cases p <;> decide)
  · exact next_of_got (by cases p <;> decide)
theorem witness_PinSequencer_lit : (got (step { live with
    ph := .p2, segPin := 0x00#8, trace := [Cycle.ofPorts false false none] })).map (fun t => t.segPin != 0x00#8) =
      some true := by decide
theorem witness_GlyphReachesThePins : live.en = true ∧
    (before [Cycle.ofPorts false true none, Cycle.ofPorts false false none,
      Cycle.ofPorts false false none]).trace = [Cycle.ofPorts false true none,
      Cycle.ofPorts false false none, Cycle.ofPorts false false none] := by decide
theorem witness_ShortTickGapLosesTheGlyph : live.en = true ∧
    (before [Cycle.ofInstr .tick, Cycle.ofInstr .tick]).trace = [Cycle.ofInstr .tick, Cycle.ofInstr .tick] ∧
    (before [Cycle.ofInstr .tick, Cycle.idle, Cycle.ofInstr .tick]).trace =
      [Cycle.ofInstr .tick, Cycle.idle, Cycle.ofInstr .tick] := by decide
theorem witness_SuspendedDisplayIsFrozen : held.en = false ∧ held.ph = .idle ∧
    (∀ c ∈ [Cycle.ofInstr .tick, Cycle.ofPorts false true (some ⟨true, 0x00#8, 0x0002#16⟩)], c.rst = none) ∧
    decode (BusAccess.word ⟨true, 0x00#8, 0x0002#16⟩) = .wrCtrl 0x0002#16 ∧
    (0x0002#16 : Word).getLsbD 0 = false ∧
    ∃ t, runSteps 2 { held with trace := [Cycle.ofInstr .tick,
      Cycle.ofPorts false true (some ⟨true, 0x00#8, 0x0002#16⟩)] } = .next t :=
  ⟨by decide, by decide, by decide, by decide, by decide, next_of_got (by decide)⟩

end Sys2Proof.Tests
end

/-! The family 10_state.md: the invariant of the machine (O15, O16), what holds after every event (O17,
O19), the counter (O32), and the events that change each element (O49). -/

namespace Sys2Proof.Machine

/-! ### Running events -/

/-- Events that answer a next state: the first one answers a state, and the others go on from it. -/
theorem execAll_cons_next {i : Instr} {is : List Instr} {s t : State}
    (h : execAll (i :: is) s = .next t) : ∃ m, exec i s = .next m ∧ execAll is m = .next t := by
  cases hx : exec i s with
  | next m => exact ⟨m, rfl, execAll_cons hx ▸ h⟩
  | fault r => cases r
  | refused r => simp [execAll, hx] at h

/-- What each event of a list keeps, the whole list keeps. -/
theorem execAll_keeps {P : State → Prop} {is : List Instr}
    (hP : ∀ i ∈ is, ∀ s t, P s → exec i s = .next t → P t) {s t : State} (hs : P s)
    (h : execAll is s = .next t) : P t := by
  induction is generalizing s with
  | nil => cases h; exact hs
  | cons i is ih =>
    obtain ⟨m, hm, hrest⟩ := execAll_cons_next h
    exact ih (fun j hj => hP j (List.mem_cons_of_mem i hj)) (hP i List.mem_cons_self s m hs hm) hrest

/-- A step that answers is the events of one cycle, from the cycle's beginning, and then the edge; with
nothing presented the cycle is an idle one. -/
theorem step_next {s t : State} (h : step s = .next t) : ∃ (c : Cycle) (rest : List Cycle) (m : State),
    execAll c.events (s.beginCycle rest) = .next m ∧ t = m.clockEdge := by
  cases htr : s.trace with
  | nil =>
    rw [step_nil htr] at h
    cases h
    exact ⟨Cycle.idle, [], _, rfl, rfl⟩
  | cons c rest =>
    rw [step_cons htr] at h
    cases hx : execAll c.events (s.beginCycle rest) with
    | next m =>
      rw [hx] at h
      cases h
      exact ⟨c, rest, m, hx, rfl⟩
    | fault r => cases r
    | refused r => simp [hx, endCycle] at h

/-! ### A cycle has at most one TICK, and it comes first (R57) -/

/-- The events that take effect are one event alone, or all those presented, with no RESET and no
reserved event among them. -/
theorem effective_cases (is : List Instr) : (∃ i, effective is = [i]) ∨
    (effective is = is ∧ Instr.reset ∉ is ∧ ∀ i ∈ is, i.isRsvdEvent = false) := by
  cases hf : is.find? Instr.isRsvdEvent with
  | some i => exact .inl ⟨i, by simp [effective, hf]⟩
  | none =>
    by_cases hr : Instr.reset ∈ is
    · exact .inl ⟨.reset, by simp [effective, hf, hr]⟩
    · exact .inr ⟨by simp [effective, hf, hr], hr, by simpa using hf⟩

/-- A word of KIND 11 is a RESET or a reserved event (R80). -/
theorem decode_rstWord (p : Payload) : decode (sidebandWord 0b11#2 p) = .reset ∨
    (decode (sidebandWord 0b11#2 p)).isRsvdEvent = true := by
  by_cases hp : p = 0#24
  · subst hp; exact .inl (by decide)
  · exact .inr (by simp [decode, decodeSideband, hp, Instr.isRsvdEvent])

/-- A bus access is no TICK. -/
theorem decode_busAccess_ne_tick (b : BusAccess) : decode b.word ≠ .tick := by
  obtain ⟨we, a, v⟩ := b
  intro h
  cases we with
  | false => simpa [← decode_busRead a v, h, Instr.isRead] using decodeRead_isRead a
  | true => simpa [← decode_busWrite a v, h, Instr.isWrite] using decodeWrite_isWrite a v

/-- After a cycle's first event no TICK comes: a tick stands before the bus access (R57). -/
theorem Cycle.tick_not_mem_tail_events (c : Cycle) : Instr.tick ∉ c.events.tail := by
  obtain ⟨rst, tick, bus⟩ := c
  obtain ⟨i, hi⟩ | ⟨hall, hreset, hrsvd⟩ :=
    effective_cases ((Cycle.words ⟨rst, tick, bus⟩).map decode)
  · simp [Cycle.events, hi]
  · rw [Cycle.events, hall]
    cases rst with
    | some p =>
      have hp : decode (sidebandWord 0b11#2 p) ∈ (Cycle.words ⟨some p, tick, bus⟩).map decode := by
        simp [Cycle.words]
      obtain hr | hr := decode_rstWord p
      · exact absurd (hr ▸ hp) hreset
      · exact absurd hr (by simp [hrsvd _ hp])
    | none =>
      cases tick <;> cases bus <;>
        simp [Cycle.words, Ne.symm (decode_busAccess_ne_tick _)]

/-! ### What an event does to the display and to the buffer -/

/-- A TICK while EN = 1 executes (R101). -/
theorem exec_tick_of_en {s : State} (h : s.en = true) : exec .tick s = .next s.renderTick := by
  rw [exec_tick, if_pos h]

/-- A TICK while EN = 0 is dropped (R100). -/
theorem exec_tick_of_not_en {s : State} (h : s.en = false) : exec .tick s = .next s.dropTick := by
  simp [h]

/-- An event other than TICK and RESET leaves the outputs, the pin sequencer and W as they are. -/
theorem exec_display_frame {i : Instr} {s t : State} (h : exec i s = .next t) (htick : i ≠ .tick)
    (hreset : i ≠ .reset) : t.segOut = s.segOut ∧ t.digOut = s.digOut ∧ t.ph = s.ph ∧
      t.segPin = s.segPin ∧ t.digPin = s.digPin ∧ t.writes = s.writes := by
  obtain ⟨-, v, rfl⟩ | ⟨-, rfl⟩ | ⟨v, -, rfl⟩ | ⟨v, -, rfl⟩ | ⟨v, -, rfl⟩ | ⟨n, v, -, rfl⟩ |
    ⟨rfl, -, -⟩ | ⟨rfl, -, -⟩ | ⟨rfl, -⟩ := exec_cases h
  · simp
  · simp
  · simp
  · simp
  · simp
  · simp
  · exact absurd rfl htick
  · exact absurd rfl htick
  · exact absurd rfl hreset

/-- DIG_OUT after an event: as it was, the tick's digit, or 0x00 after a RESET (R28). -/
theorem exec_digOut {i : Instr} {s t : State} (h : exec i s = .next t) :
    t.digOut = s.digOut ∨ (i = .tick ∧ s.en = true ∧ t.digOut = s.tickDigit) ∨
      (i = .reset ∧ t.digOut = 0x00#8) := by
  by_cases htick : i = .tick
  · subst htick
    cases hen : s.en with
    | true => rw [exec_tick_of_en hen] at h; cases h; exact .inr (.inl ⟨rfl, rfl, rfl⟩)
    | false => rw [exec_tick_of_not_en hen] at h; cases h; exact .inl rfl
  · by_cases hreset : i = .reset
    · subst hreset; cases h; exact .inr (.inr ⟨rfl, rfl⟩)
    · obtain ⟨-, hd, -⟩ := exec_display_frame h htick hreset
      exact .inl hd

/-- Every event keeps the buffer in canonical form (log 3). -/
theorem exec_keeps_wf {i : Instr} {s t : State} (h : exec i s = .next t)
    (hs : Memory.wf s.buf = true) : Memory.wf t.buf = true := by
  obtain ⟨-, v, rfl⟩ | ⟨-, rfl⟩ | ⟨v, -, rfl⟩ | ⟨v, -, rfl⟩ | ⟨v, -, rfl⟩ | ⟨n, v, -, rfl⟩ |
    ⟨-, -, rfl⟩ | ⟨-, -, rfl⟩ | ⟨-, rfl⟩ := exec_cases h
  · exact hs
  · exact hs
  · cases hc : ctrlClr v <;> simp [hc, hs, Memory.nil_wf]
  · exact hs
  · exact hs
  · exact Memory.write_wf _ n.isLt hs
  · exact hs
  · exact hs
  · exact Memory.nil_wf

/-- The digit an executed tick energizes is one bit and not none (R103). -/
theorem State.tickDigit_oneHot (s : State) :
    atMostOneBit s.tickDigit = true ∧ s.tickDigit ≠ 0x00#8 := by
  unfold State.tickDigit
  generalize s.dc = d
  revert d; decide

/-! ### The invariant inside a cycle -/

/-- The clauses of `State.inv`, by name. -/
theorem State.inv_iff (s : State) : s.inv = true ↔
    Memory.wf s.buf = true ∧ atMostOneBit s.digOut = true ∧ atMostOneBit s.digPin = true ∧
      (s.digOut = 0x00#8 → s.segOut = 0x00#8) ∧ s.pinsCoherent = true := by
  simp only [State.inv, Bool.and_eq_true, Bool.or_eq_true, bne_iff_ne, beq_iff_eq, and_assoc,
    ← imp_iff_not_or]

/-- `State.inv` between the events of a cycle: an executed tick has moved the outputs and the pins follow
only from the edge on, so the pins need to be coherent only where no TICK executed (log 8). -/
structure State.MidCycle (s : State) : Prop where
  wf : Memory.wf s.buf = true
  digOut : atMostOneBit s.digOut = true
  digPin : atMostOneBit s.digPin = true
  blank : s.digOut = 0x00#8 → s.segOut = 0x00#8
  pins : s.writes = [] → s.pinsCoherent = true

/-- No clause speaks of what the beginning of a cycle changes. -/
@[simp] theorem State.beginCycle_inv (rest : List Cycle) (s : State) :
    (s.beginCycle rest).inv = s.inv := rfl

/-- Settles O16, clause by clause. -/
theorem resetHasTheInvariant : Obligations.ResetHasTheInvariant :=
  State.reset.inv_iff.mpr ⟨Memory.nil_wf, rfl, rfl, fun _ => rfl, rfl⟩

/-- A RESET answers a state with the invariant. -/
@[simp] theorem State.resetAll_inv (s : State) : s.resetAll.inv = true :=
  resetHasTheInvariant

/-- The invariant holds inside a cycle too, whatever W is. -/
theorem State.MidCycle.of_inv {s : State} (h : s.inv = true) : s.MidCycle := by
  obtain ⟨hwf, hdig, hpin, hblank, hcoh⟩ := s.inv_iff.mp h
  exact ⟨hwf, hdig, hpin, hblank, fun _ => hcoh⟩

/-- Only the outputs, the pin sequencer, W and the buffer's form count. -/
theorem State.MidCycle.congr {s t : State} (h : s.MidCycle) (hwf : Memory.wf t.buf = true)
    (hd : t.segOut = s.segOut ∧ t.digOut = s.digOut ∧ t.ph = s.ph ∧ t.segPin = s.segPin ∧
      t.digPin = s.digPin ∧ t.writes = s.writes) : t.MidCycle := by
  obtain ⟨hseg, hdig, hph, hsegPin, hdigPin, hw⟩ := hd
  have hcoh : t.pinsCoherent = s.pinsCoherent := by
    simp only [State.pinsCoherent, hseg, hdig, hph, hsegPin, hdigPin]
  exact ⟨hwf, hdig ▸ h.digOut, hdigPin ▸ h.digPin, by rw [hdig, hseg]; exact h.blank,
    by rw [hw, hcoh]; exact h.pins⟩

/-- An executed tick selects one digit; its W is not empty, so the pins may lag until the edge. -/
theorem State.MidCycle.renderTick {s : State} (h : s.MidCycle) : s.renderTick.MidCycle := by
  obtain ⟨hone, hne⟩ := s.tickDigit_oneHot
  exact ⟨h.wf, hone, h.digPin, fun h0 => absurd h0 hne, fun hw => by simp [State.tickWrites] at hw⟩

/-- Every event keeps the mid-cycle invariant, a TICK where none has executed yet: after an executed one
a dropped tick would empty W while the pins lag. -/
theorem exec_keeps_midCycle {i : Instr} {s t : State} (hs : s.MidCycle) (h : exec i s = .next t)
    (hfirst : i = .tick → s.writes = []) : t.MidCycle := by
  by_cases htick : i = .tick
  · cases hen : s.en with
    | true => rw [htick, exec_tick_of_en hen] at h; cases h; exact hs.renderTick
    | false =>
      rw [htick, exec_tick_of_not_en hen] at h
      cases h
      exact hs.congr hs.wf (by simp [hfirst htick])
  · by_cases hreset : i = .reset
    · subst hreset
      cases h
      exact .of_inv s.resetAll_inv
    · exact hs.congr (exec_keeps_wf h hs.wf) (exec_display_frame h htick hreset)

/-- The events of a cycle keep the mid-cycle invariant from a state with no W: its one TICK comes first. -/
theorem execAll_events_keeps_midCycle {c : Cycle} {s t : State} (hs : s.MidCycle)
    (hw : s.writes = []) (h : execAll c.events s = .next t) : t.MidCycle := by
  have htail := c.tick_not_mem_tail_events
  cases hc : c.events with
  | nil => rw [hc] at h; cases h; exact hs
  | cons i is =>
    rw [hc] at h htail
    obtain ⟨m, hm, hrest⟩ := execAll_cons_next h
    exact execAll_keeps (P := State.MidCycle)
      (fun j hj _ _ ha hx => exec_keeps_midCycle ha hx fun htick => absurd (htick ▸ hj) htail)
      (exec_keeps_midCycle hs hm fun _ => hw) hrest

/-- The edge makes the pins coherent again: it begins a tick's sequence where one executed, and moves a
sequence in progress on (R214). -/
theorem State.MidCycle.clockEdge_inv {s : State} (h : s.MidCycle) : s.clockEdge.inv = true := by
  rw [State.inv_iff]
  simp only [State.clockEdge_buf, State.clockEdge_digOut, State.clockEdge_segOut]
  suffices hp : atMostOneBit s.clockEdge.digPin = true ∧ s.clockEdge.pinsCoherent = true from
    ⟨h.wf, h.digOut, hp.1, h.blank, hp.2⟩
  by_cases hw : s.writes = []
  · have hcoh := h.pins hw
    cases hph : s.ph with
    | idle => simpa [State.clockEdge, hw, hph] using ⟨h.digPin, hcoh⟩
    | p1 => simp_all [State.clockEdge, State.pinsCoherent, h.digOut]
    | p2 => simp_all [State.clockEdge, State.pinsCoherent, h.digOut]
  · simp [State.clockEdge, hw, State.pinsCoherent, h.digPin]

/-- Settles O15: the cycle begins in the mid-cycle invariant, its events keep it, and the edge makes it
the whole invariant again. -/
theorem stepKeepsTheInvariant : Obligations.StepKeepsTheInvariant := by
  intro s t hs h
  obtain ⟨c, rest, m, hm, rfl⟩ := step_next h
  exact (execAll_events_keeps_midCycle (.of_inv (by simpa using hs)) rfl hm).clockEdge_inv

/-! ### After every event -/

/-- DIG_OUT is 0x00 or one-hot (R43). -/
def State.LegalDigOut (s : State) : Prop :=
  s.digOut = 0x00#8 ∨ ∃ d : BitVec 3, s.digOut = 1#8 <<< d.toNat

/-- Every event keeps DIG_OUT 0x00 or one-hot. -/
theorem exec_keeps_legalDigOut {i : Instr} {s t : State} (hs : s.LegalDigOut)
    (h : exec i s = .next t) : t.LegalDigOut := by
  obtain hsame | ⟨-, -, hdigit⟩ | ⟨-, hzero⟩ := exec_digOut h
  · unfold State.LegalDigOut; rw [hsame]; exact hs
  · exact .inr ⟨s.dc, hdigit⟩
  · exact .inl hzero

/-- Every event but RESET keeps a digit energized. -/
theorem exec_keeps_digOut_ne_zero {i : Instr} {s t : State} (hi : i ≠ .reset)
    (hs : s.digOut ≠ 0x00#8) (h : exec i s = .next t) : t.digOut ≠ 0x00#8 := by
  obtain hsame | ⟨-, -, hdigit⟩ | ⟨hreset, -⟩ := exec_digOut h
  · rw [hsame]; exact hs
  · rw [hdigit]; exact s.tickDigit_oneHot.2
  · exact absurd hreset hi

/-- Settles O17: an event answers a legal DIG_OUT where there was one, a RESET begins with 0x00, and an
executed tick leaves a digit that only a RESET takes away. -/
theorem invariantsAfterEveryEvent : Obligations.InvariantsAfterEveryEvent := by
  refine ⟨fun i s t hs h => ⟨?_, ?_, State.cell_of_ge le_rfl, exec_keeps_legalDigOut hs h⟩,
    fun is s t h => ?_, fun is s t hen hreset h => ?_⟩
  · exact Nat.le_of_lt_succ t.cc.isLt
  · exact Nat.le_of_lt_succ t.dc.isLt
  · rw [execAll_cons (exec_reset s)] at h
    exact execAll_keeps (P := State.LegalDigOut) (fun _ _ _ _ => exec_keeps_legalDigOut) (.inl rfl) h
  · rw [execAll_cons (exec_tick_of_en hen)] at h
    exact execAll_keeps (P := fun m => m.digOut ≠ 0x00#8)
      (fun i hi _ _ => exec_keeps_digOut_ne_zero fun hr => hreset (hr ▸ hi)) s.tickDigit_oneHot.2 h

/-- Settles O19: the state a RESET answers, field by field. -/
theorem resetValues : Obligations.ResetValues := fun s =>
  ⟨s.resetAll, exec_reset s, fun k _ => s.resetAll_cell k, s.resetAll_cc, s.resetAll_dc, s.resetAll_stc,
    s.resetAll_en, s.resetAll_segOut, s.resetAll_digOut, s.resetAll_gp, s.resetAll_ph, s.resetAll_segPin,
    s.resetAll_digPin⟩

/-! ### The counter -/

/-- One TICK or read: EN stays, and STC counts the TICK modulo 65536 where EN = 1 (R108). -/
theorem exec_stc_of_tick_or_read {i : Instr} {s t : State} (hi : i = .tick ∨ i.isRead = true)
    (h : exec i s = .next t) : t.en = s.en ∧
      t.stc.toNat = if s.en then (s.stc.toNat + [i].count .tick) % 65536 else s.stc.toNat := by
  obtain rfl | hread := hi
  · cases hen : s.en with
    | true => rw [exec_tick_of_en hen] at h; cases h; simp [hen]
    | false => rw [exec_tick_of_not_en hen] at h; cases h; simp [hen]
  · obtain ⟨v, hv, -⟩ := exec_read hread s
    obtain rfl : s.returnData v = t := by simpa [hv] using h
    have hne : i ≠ .tick := by rintro rfl; simp [Instr.isRead] at hread
    simp [hne, Nat.mod_eq_of_lt s.stc.isLt]

/-- Settles O32, by induction on the events. -/
theorem stcCountsExecutedTicks : Obligations.StcCountsExecutedTicks := by
  intro is
  induction is with
  | nil =>
    intro s t _ h
    cases h
    simp [Nat.mod_eq_of_lt s.stc.isLt]
  | cons i is ih =>
    intro s t hall h
    obtain ⟨m, hm, hrest⟩ := execAll_cons_next h
    obtain ⟨hi, his⟩ := List.forall_mem_cons.mp hall
    obtain ⟨hen, hstc⟩ := exec_stc_of_tick_or_read hi hm
    have hcount : (i :: is).count .tick = [i].count .tick + is.count .tick :=
      List.count_append (l₁ := [i])
    rw [ih m t his hrest, hen, hstc, hcount]
    split_ifs
    · omega
    · rfl

/-! ### The writers of each element -/

/-- Settles O49, by what an event can do. -/
theorem writersOfEachElement : Obligations.WritersOfEachElement := by
  intro i s t h
  obtain ⟨-, v, rfl⟩ | ⟨-, rfl⟩ | ⟨v, rfl, rfl⟩ | ⟨v, rfl, rfl⟩ | ⟨v, rfl, rfl⟩ | ⟨n, v, rfl, rfl⟩ |
    ⟨rfl, hen, rfl⟩ | ⟨rfl, -, rfl⟩ | ⟨rfl, -⟩ := exec_cases h
  · simp
  · simp
  · simp +contextual [State.writeCtrl_cell, ctrlCrst, ctrlClr, or_imp]
  · simp
  · simp
  · have hcell (k : Nat) (hk : (s.writeCell n (lowByte v)).cell k ≠ s.cell k) : n.toNat = k :=
      by_contra fun hne => hk (State.writeCell_cell_other (Ne.symm hne))
    simpa using hcell
  · simp [hen]
  · simp
  · simp

end Sys2Proof.Machine

/-! The family 20_memory.md: a step is the event of the word presented (O10), the order of a cycle's events
(O11), the cycle in which read data comes (O12), and suspension (O50). -/

namespace Sys2Proof

/-! ### Decoding what was encoded -/

/-- The event of a read word, whatever its data field (R75, R77). -/
@[simp] theorem decode_readWord (a : Addr) : decode (readWord a) = decodeRead a := by
  simp [decode, readWord]

/-- The event of a write word (R75). -/
@[simp] theorem decode_writeWord (a : Addr) (v : Word) :
    decode (writeWord a v) = decodeWrite a v := by
  simp [decode, writeWord]

/-- The event of a sideband word, by the low bit of its KIND (R75, R80). -/
@[simp] theorem decode_sidebandWord (k : BitVec 1) (p : Payload) :
    decode (sidebandWord (0b1#1 ++ k) p) = decodeSideband k p := by
  have hk : 0b1#1 ++ k ≠ 0b00#2 ∧ 0b1#1 ++ k ≠ 0b01#2 ∧ (0b1#1 ++ k).extractLsb' 0 1 = k := by
    revert k; decide
  obtain ⟨hread, hwrite, hlow⟩ := hk
  simp only [decode, OpWord.kind_sidebandWord, OpWord.payload_sidebandWord, hread, hwrite, hlow, if_false]

/-- A buffer cell's address is none of the addresses below it (R38). -/
theorem bufAddr_ne (i : CellIndex) : bufAddr i ≠ 0x00#8 ∧ bufAddr i ≠ 0x01#8 ∧ bufAddr i ≠ 0x02#8 ∧
    bufAddr i ≠ 0x03#8 ∧ bufAddr i ≠ 0x04#8 := by
  revert i; decide

@[simp] theorem decodeRead_bufAddr (i : CellIndex) : decodeRead (bufAddr i) = .rdBuf i := by
  simp [decodeRead, bufAddr_ne]

@[simp] theorem decodeWrite_bufAddr (i : CellIndex) (v : Word) :
    decodeWrite (bufAddr i) v = .wrBuf i v := by
  simp [decodeWrite, bufAddr_ne]

/-- A reserved address reads through the fallback row (R144). -/
theorem decodeRead_reserved {a : Addr} (h : reservedAddr a = true) : decodeRead a = .rdRsvd a := by
  simp [decodeRead, (reservedAddr_iff a).mp h]

/-- A reserved address is written through the fallback row (R145). -/
theorem decodeWrite_reserved {a : Addr} (h : reservedAddr a = true) (v : Word) :
    decodeWrite a v = .wrRsvd a v := by
  simp [decodeWrite, (reservedAddr_iff a).mp h]

/-- A well-formed event is what its op word decodes to: the words of the specific rows are decoded as they
stand, and the fields of a fallback row lead past every specific row (R75, R80). -/
theorem decode_encode {i : Instr} (h : i.wellFormed = true) : decode (encode i) = i := by
  cases i with
  | rdBuf n => simp [encode]
  | wrBuf n v => simp [encode]
  | rdRsvd a => simpa [encode] using decodeRead_reserved h
  | wrRsvd a v => simpa [encode] using decodeWrite_reserved h v
  | tick => rfl
  | reset => rfl
  | rsvdEvent k p =>
    have hp : p ≠ 0#24 := by simpa [Instr.wellFormed] using h
    simp [encode, decodeSideband, hp]
  | rdCtrl | rdStatus | rdStc | rdDisp | rdGprobe | rdBufterm => rfl
  | wrCtrl v | wrStatus v | wrStc v | wrDisp v | wrGprobe v | wrBufterm v =>
    rw [encode, decode_writeWord]; rfl

end Sys2Proof

namespace Sys2Proof.Machine

/-! ### One step, one event -/

/-- A step on the cycle of one op word runs the event it decodes to, and then the edge. -/
theorem step_ofWord {s : State} {w : OpWord} {rest : List Cycle}
    (h : s.trace = Cycle.ofWord w :: rest) :
    step s = endCycle (exec (decode w) (s.beginCycle rest)) := by
  rw [step_cons h, Cycle.events_ofWord, execAll_singleton]

/-- The word of a number below 2^26 stands in front of the trace (log 1). -/
theorem State.withFetchWord_eq (s : State) (nbits : Nat) {w : Nat} (h : w < 2 ^ 26) :
    s.withFetchWord nbits w =
      { s with trace := Cycle.ofWord (BitVec.ofNat 26 w) :: s.trace } := by
  simp only [State.withFetchWord, State.presentWord, opWordOfNat, if_pos h]

/-- The edge moves the pin sequencer alone (R214). -/
theorem State.clockEdge_eq_pins (s : State) : s.clockEdge = { s with
    ph := s.clockEdge.ph, segPin := s.clockEdge.segPin, digPin := s.clockEdge.digPin } := by
  unfold State.clockEdge
  repeat' split
  all_goals rfl

/-- Settles O10, by the step on the cycle of one op word. -/
theorem stepRunsTheDecodedEvent : Obligations.StepRunsTheDecodedEvent := by
  refine fun s => ⟨fun i rest hi h => ?_, fun w rest h => step_ofWord h, fun nbits w hw => ?_,
    fun _ => rfl, rfl, s.clockEdge_eq_pins⟩
  · rw [step_ofWord h, decode_encode hi]
  · rw [s.withFetchWord_eq nbits hw, step_ofWord rfl]
    rfl

/-! ### The events of a cycle, in order (R57) -/

/-- Where rst = 0 and a bus access is presented, the step runs the tick, then the access, then the edge. -/
theorem step_ofPorts_access {s m n : State} {k : Bool} {b : BusAccess} {rest : List Cycle}
    (h : s.trace = Cycle.ofPorts false k (some b) :: rest)
    (hm : execAll (if k then [.tick] else []) (s.beginCycle rest) = .next m)
    (hn : exec (decode b.word) m = .next n) : step s = .next n.clockEdge := by
  have hrun : execAll (Cycle.ofPorts false k (some b)).events (s.beginCycle rest) = .next n := by
    rw [Cycle.events_ofPorts, execAll_append _ hm]
    exact (execAll_singleton _ m).trans hn
  rw [step_cons h, hrun, endCycle_next]

/-- A write beside a tick acts on the state the tick leaves, whether it executed or was dropped. -/
theorem step_tick_write {s n : State} {a : Addr} {v : Word} {rest : List Cycle}
    (h : s.trace = Cycle.ofPorts false true (some ⟨true, a, v⟩) :: rest)
    (hn : exec (decodeWrite a v) (if s.en then (s.beginCycle rest).renderTick
      else (s.beginCycle rest).dropTick) = .next n) :
    step s = .next n.clockEdge :=
  step_ofPorts_access h (execAll_singleton ..) (decode_busWrite a v ▸ hn)

/-! The tick of a cycle reads what the state before the cycle holds. -/

@[simp] theorem State.beginCycle_tickGlyph (rest : List Cycle) (s : State) :
    (s.beginCycle rest).tickGlyph = s.tickGlyph := rfl
@[simp] theorem State.beginCycle_tickDigit (rest : List Cycle) (s : State) :
    (s.beginCycle rest).tickDigit = s.tickDigit := rfl
@[simp] theorem State.beginCycle_nextCc (rest : List Cycle) (s : State) :
    (s.beginCycle rest).nextCc = s.nextCc := rfl
@[simp] theorem State.beginCycle_nextDc (rest : List Cycle) (s : State) :
    (s.beginCycle rest).nextDc = s.nextDc := rfl

/-- With rst = 1 the cycle is the RESET alone, and the edge keeps the pins dark (R57, R200). -/
theorem step_rst {s : State} {k : Bool} {b : Option BusAccess} {rest : List Cycle}
    (h : s.trace = Cycle.ofPorts true k b :: rest) :
    step s = .next { State.reset with trace := rest } := by
  rw [step_cons h, Cycle.events_ofPorts_rst]
  rfl

/-- Settles O11: a RESET cycle by itself, and each write on the state the tick beside it leaves. -/
theorem eventsOfACycleTakeEffectInOrder : Obligations.EventsOfACycleTakeEffectInOrder := by
  refine ⟨fun s k b rest h => step_rst h, fun s k b rest h => ?_, fun s v rest h => ?_,
    fun s v rest h => ?_, fun s i v rest h hen => ?_⟩
  · rw [step_cons h, Cycle.events_ofPorts]
  · exact ⟨_, step_tick_write h (exec_wrStc v _), by simp⟩
  · refine ⟨_, step_tick_write h (exec_wrCtrl v _), by simp [ctrlEn], ?_, ?_, ?_⟩
    · exact fun hcrst => by simp [ctrlCrst, hcrst]
    · exact fun hen => by simp [hen]
    · exact fun hen => by simp [hen]
  · have hn : exec (decodeWrite (bufAddr i) v) (if s.en then (s.beginCycle rest).renderTick
        else (s.beginCycle rest).dropTick) =
          .next ((s.beginCycle rest).renderTick.writeCell i (lowByte v)) := by simp [hen]
    refine ⟨_, step_tick_write h hn, by simp, by simp, by simp, fun hwf => ?_⟩
    have hcell := (s.beginCycle rest).renderTick.writeCell_cell_same i (lowByte v) hwf
    rw [State.clockEdge_cell, hcell, lowByte_eq]

/-! ### Read data (R58) -/

/-- A step that answers, by the events of its cycle. -/
theorem step_cons_next {s t : State} {c : Cycle} {rest : List Cycle} (htr : s.trace = c :: rest)
    (h : step s = .next t) : ∃ m, execAll c.events (s.beginCycle rest) = .next m ∧ t = m.clockEdge := by
  rw [step_cons htr] at h
  cases hx : execAll c.events (s.beginCycle rest) with
  | next m => rw [hx] at h; cases h; exact ⟨m, rfl, rfl⟩
  | fault r => cases r
  | refused r => simp [hx, endCycle] at h

/-- Only a read gives read data. -/
theorem exec_keeps_no_rdata {i : Instr} {s t : State} (hi : i.isRead = false) (hs : s.rdata = none)
    (h : exec i s = .next t) : t.rdata = none := by
  obtain ⟨hread, -⟩ | ⟨-, rfl⟩ | ⟨v, -, rfl⟩ | ⟨v, -, rfl⟩ | ⟨v, -, rfl⟩ | ⟨n, v, -, rfl⟩ |
    ⟨-, -, rfl⟩ | ⟨-, -, rfl⟩ | ⟨-, rfl⟩ := exec_cases h
  · simp [hi] at hread
  · exact hs
  · simp [hs]
  · exact hs
  · exact hs
  · exact hs
  · exact hs
  · exact hs
  · rfl

/-- A write event is no read. -/
theorem isRead_eq_false_of_isWrite {i : Instr} (h : i.isWrite = true) : i.isRead = false := by
  cases i <;> cases h <;> rfl

/-- A cycle without rst and without a read access has no read among its events. -/
theorem Cycle.isRead_eq_false_of_mem_events_ofPorts {k : Bool} {b : Option BusAccess} {i : Instr}
    (hb : ∀ x, b = some x → x.we = true) (hi : i ∈ (Cycle.ofPorts false k b).events) :
    i.isRead = false := by
  rw [Cycle.events_ofPorts, List.mem_append] at hi
  obtain hi | hi := hi
  · cases k with
    | false => cases hi
    | true => rw [List.mem_singleton.mp hi]; rfl
  · obtain ⟨⟨we, a, v⟩, hx, rfl⟩ : ∃ x, b = some x ∧ decode x.word = i := by simpa using hi
    obtain rfl : we = true := hb _ hx
    rw [decode_busWrite]
    exact isRead_eq_false_of_isWrite (decodeWrite_isWrite a v)

/-- A TICK, where one is presented, answers from every state. -/
theorem execAll_tick_next (k : Bool) (s : State) :
    ∃ m, execAll (if k then [.tick] else []) s = .next m := by
  cases k with
  | true => exact ⟨_, rfl⟩
  | false => exact ⟨_, rfl⟩

/-- Settles O12: a read access is a read event on the state after the tick, and no other event of a cycle
gives read data. -/
theorem readDataComesInTheNextCycle : Obligations.ReadDataComesInTheNextCycle := by
  refine ⟨fun s k b rest hb h => ?_, fun s t k b rest hb htr h => ?_⟩
  · obtain ⟨we, a, d⟩ := b
    obtain rfl : we = false := hb
    obtain ⟨m, hm⟩ := execAll_tick_next k (s.beginCycle rest)
    obtain ⟨v, hv, -⟩ := exec_read (decode_busRead a d ▸ decodeRead_isRead a) m
    exact ⟨m, _, v, _, hm, hv, rfl, step_ofPorts_access h hm hv, by simp [State.busRvalid],
      by simp [State.busRdata]⟩
  · obtain ⟨m, hm, rfl⟩ := step_cons_next htr h
    have hnone : m.rdata = none := execAll_keeps (P := fun u => u.rdata = none)
      (fun i hi _ _ => exec_keeps_no_rdata (Cycle.isRead_eq_false_of_mem_events_ofPorts hb hi)) rfl hm
    simp [State.busRvalid, hnone]

/-! ### Suspension (R60) -/

/-- What R60 says of a state `t` that the events `is` lead to from the suspended state `m`. -/
structure State.SuspendedSince (m : State) (is : List Instr) (t : State) : Prop where
  en : t.en = false
  outputs : Instr.reset ∉ is → t.segOut = m.segOut ∧ t.digOut = m.digOut
  stc : Instr.reset ∉ is → (∀ v, Instr.wrStc v ∉ is) → t.stc = m.stc
  writes : m.writes = [] → t.writes = []

/-- Every event but a CTRL write of EN = 1 keeps the suspension: a TICK is dropped (R100). -/
theorem exec_keeps_suspendedSince {m s t : State} {is : List Instr} {i : Instr} (hi : i ∈ is)
    (hctrl : ∀ v, i = .wrCtrl v → ctrlEn v = false) (hs : m.SuspendedSince is s)
    (h : exec i s = .next t) : m.SuspendedSince is t := by
  obtain ⟨hen, hout, hstc, hw⟩ := hs
  obtain ⟨-, v, rfl⟩ | ⟨-, rfl⟩ | ⟨v, rfl, rfl⟩ | ⟨v, rfl, rfl⟩ | ⟨v, -, rfl⟩ | ⟨n, v, -, rfl⟩ |
    ⟨-, hon, -⟩ | ⟨-, -, rfl⟩ | ⟨rfl, rfl⟩ := exec_cases h
  · exact ⟨hen, hout, hstc, hw⟩
  · exact ⟨hen, hout, hstc, hw⟩
  · exact ⟨by simp [hctrl v rfl], by simpa using hout, by simpa using hstc, by simpa using hw⟩
  · exact ⟨hen, hout, fun _ hno => absurd hi (hno v), hw⟩
  · exact ⟨hen, hout, hstc, hw⟩
  · exact ⟨hen, hout, hstc, hw⟩
  · simp [hen] at hon
  · exact ⟨hen, hout, hstc, fun _ => rfl⟩
  · exact ⟨rfl, fun hno => absurd hi hno, fun hno => absurd hi hno, fun _ => rfl⟩

/-- Settles O50: `suspend` leaves EN = 0, and each of the events keeps the suspension. -/
theorem suspensionStopsRendering : Obligations.SuspensionStopsRendering := by
  intro is s m t hctrl hsusp h
  obtain rfl : s.writeCtrl 0x0000#16 = m := by simpa [suspend] using hsusp
  have hstart : (s.writeCtrl 0x0000#16).SuspendedSince is (s.writeCtrl 0x0000#16) :=
    ⟨by simp [ctrlEn], fun _ => ⟨rfl, rfl⟩, fun _ _ => rfl, id⟩
  obtain ⟨hen, hout, hstc, hw⟩ : (s.writeCtrl 0x0000#16).SuspendedSince is t :=
    execAll_keeps (P := State.SuspendedSince _ is)
      (fun i hi _ _ => exec_keeps_suspendedSince hi fun v hv => hctrl v (hv ▸ hi)) hstart h
  exact ⟨hen, hout, hstc, hw⟩

end Sys2Proof.Machine

/-! The family 30_encoding.md: decoding and encoding undo each other (O1, O2, O3), the decoder
follows the opcode table (O4), the worked encodings (O5), the ignored data field of a read (O6), a line of
several events (O7), and the reserved event (O8, O9). -/

namespace Sys2Proof

/-! ### Every op word is spelled by an event -/

/-- Settles O1, by `decode_encode`: one case an event. -/
theorem decodeOfEncodeIsIdentity : Obligations.DecodeOfEncodeIsIdentity := fun _ => decode_encode

/-- An op word is a bus read, a bus write, or a sideband word, by its KIND (R70). -/
theorem OpWord.cases_kind (w : OpWord) : (∃ a d, w = busWord 0b00#2 a d) ∨
    (∃ a v, w = busWord 0b01#2 a v) ∨ ∃ (k : BitVec 1) (p : Payload), w = sidebandWord (0b1#1 ++ k) p := by
  have hkind : OpWord.kind w = 0b00#2 ∨ OpWord.kind w = 0b01#2 ∨
      ∃ k : BitVec 1, OpWord.kind w = 0b1#1 ++ k := by
    generalize OpWord.kind w = x
    revert x; decide
  obtain h | h | ⟨k, h⟩ := hkind
  · exact .inl ⟨_, _, h ▸ (busWord_fields w).symm⟩
  · exact .inr (.inl ⟨_, _, h ▸ (busWord_fields w).symm⟩)
  · exact .inr (.inr ⟨k, _, h ▸ (sidebandWord_fields w).symm⟩)

/-- The register map: an address is one of the seven named registers' or a reserved one (R32, R40). -/
theorem addr_cases (a : Addr) : a = 0x00#8 ∨ a = 0x01#8 ∨ a = 0x02#8 ∨ a = 0x03#8 ∨ a = 0x04#8 ∨
    (∃ i, a = bufAddr i) ∨ a = 0x40#8 ∨ reservedAddr a = true := by
  by_cases h : a.extractLsb' 5 3 = 0b001#3
  · have hbuf : ∃ i, a = bufAddr i := ⟨_, (bufAddr_of_high h).symm⟩
    simp only [hbuf, true_or, or_true]
  · rw [reservedAddr_iff]
    tauto

/-- Every read word is the op word of a well-formed event (R75, R144). -/
theorem exists_encode_eq_readWord (a : Addr) : ∃ i, i.wellFormed = true ∧ encode i = readWord a := by
  obtain rfl | rfl | rfl | rfl | rfl | ⟨n, rfl⟩ | rfl | h := addr_cases a
  · exact ⟨.rdCtrl, rfl, rfl⟩
  · exact ⟨.rdStatus, rfl, rfl⟩
  · exact ⟨.rdStc, rfl, rfl⟩
  · exact ⟨.rdDisp, rfl, rfl⟩
  · exact ⟨.rdGprobe, rfl, rfl⟩
  · exact ⟨.rdBuf n, rfl, rfl⟩
  · exact ⟨.rdBufterm, rfl, rfl⟩
  · exact ⟨.rdRsvd a, h, rfl⟩

/-- Every write word is the op word of a well-formed event (R75, R145). -/
theorem exists_encode_eq_writeWord (a : Addr) (v : Word) :
    ∃ i, i.wellFormed = true ∧ encode i = writeWord a v := by
  obtain rfl | rfl | rfl | rfl | rfl | ⟨n, rfl⟩ | rfl | h := addr_cases a
  · exact ⟨.wrCtrl v, rfl, rfl⟩
  · exact ⟨.wrStatus v, rfl, rfl⟩
  · exact ⟨.wrStc v, rfl, rfl⟩
  · exact ⟨.wrDisp v, rfl, rfl⟩
  · exact ⟨.wrGprobe v, rfl, rfl⟩
  · exact ⟨.wrBuf n v, rfl, rfl⟩
  · exact ⟨.wrBufterm v, rfl, rfl⟩
  · exact ⟨.wrRsvd a v, h, rfl⟩

/-- Every sideband word is the op word of a well-formed event (R75, R80). -/
theorem exists_encode_eq_sidebandWord (k : BitVec 1) (p : Payload) :
    ∃ i, i.wellFormed = true ∧ encode i = sidebandWord (0b1#1 ++ k) p := by
  by_cases hp : p = 0#24
  · subst hp
    obtain rfl | rfl : k = 0#1 ∨ k = 1#1 := by revert k; decide
    · exact ⟨.tick, rfl, rfl⟩
    · exact ⟨.reset, rfl, rfl⟩
  · exact ⟨.rsvdEvent k p, by simpa [Instr.wellFormed] using hp, rfl⟩

/-- The event of a bus read, whatever its data field (R77). -/
@[simp] theorem decode_busWord_read (a : Addr) (d : Word) : decode (busWord 0b00#2 a d) = decodeRead a := by
  simp [decode]

/-- The event of a bus write (R75). -/
@[simp] theorem decode_busWord_write (a : Addr) (v : Word) :
    decode (busWord 0b01#2 a v) = decodeWrite a v :=
  decode_writeWord a v

/-- The KIND of a sideband word is no bus KIND (R70). -/
@[simp] theorem sidebandKind_not_bus (k : BitVec 1) : ¬ (0b1#1 ++ k : BitVec 2) ≤ 0b01#2 := by
  revert k; decide

@[simp] theorem sidebandKind_ne_read (k : BitVec 1) : (0b1#1 ++ k : BitVec 2) ≠ 0b00#2 := by
  revert k; decide

/-- What a word decodes to is a well-formed event, whose op word is the word, or the read word of the same
address where the word is a read (R75, R76, R77). -/
theorem decode_spec (w : OpWord) : (decode w).wellFormed = true ∧
    encode (decode w) = if OpWord.kind w = 0b00#2 then readWord (OpWord.addr w) else w := by
  obtain ⟨i, hi, he⟩ : ∃ i, i.wellFormed = true ∧
      encode i = if OpWord.kind w = 0b00#2 then readWord (OpWord.addr w) else w := by
    obtain ⟨a, d, rfl⟩ | ⟨a, v, rfl⟩ | ⟨k, p, rfl⟩ := OpWord.cases_kind w
    · simpa using exists_encode_eq_readWord a
    · simpa [writeWord] using exists_encode_eq_writeWord a v
    · simpa using exists_encode_eq_sidebandWord k p
  have hdec : decode w = i := by
    have hsame : decode (encode i) = decode w := by
      rw [he]
      split
      next hk => rw [decode_readWord, decode, if_pos hk]
      next => rfl
    rw [← hsame, decode_encode hi]
  exact hdec ▸ ⟨hi, he⟩

theorem decodeSideband_isRead (k : BitVec 1) (p : Payload) : (decodeSideband k p).isRead = false := by
  unfold decodeSideband
  repeat' split
  all_goals rfl

/-- A word decodes to a bus read exactly where its KIND is 00 (R70, R75). -/
theorem isRead_decode_iff (w : OpWord) : (decode w).isRead = true ↔ OpWord.kind w = 0b00#2 := by
  obtain ⟨a, d, rfl⟩ | ⟨a, v, rfl⟩ | ⟨k, p, rfl⟩ := OpWord.cases_kind w
  · simp [Machine.decodeRead_isRead]
  · simp [Machine.isRead_eq_false_of_isWrite (Machine.decodeWrite_isWrite a v)]
  · simp [decodeSideband_isRead]

/-- Settles O2: KIND says whether the word is a read, whose data field the encoder clears. -/
theorem encodeOfDecodeIsTheWord : Obligations.EncodeOfDecodeIsTheWord := by
  intro w
  obtain ⟨-, he⟩ := decode_spec w
  refine ⟨fun h => ?_, fun h => ?_⟩
  · have hk : OpWord.kind w ≠ 0b00#2 := fun hk => by simp [(isRead_decode_iff w).mpr hk] at h
    rw [he, if_neg hk]
  · have hk : OpWord.kind w = 0b00#2 := (isRead_decode_iff w).mp h
    rw [he, if_pos hk, hk, readWord]

/-- Settles O3: every word is spelled by a well-formed event, and decodes to it. -/
theorem decodedEventsAreWellFormed : Obligations.DecodedEventsAreWellFormed :=
  fun w => (decode_spec w).1

/-! ### The opcode table (R76) -/

/-- Every row stands in the table exactly once. -/
theorem opTable_countP_row (x : Row) : opTable.countP (·.row == x) = 1 := by
  cases x <;> rfl

/-- The op word of a well-formed event matches its row, for every event: the family `EncodedRow`. -/
theorem matchesWord_encode (i : Instr) : Laws.EncodedRow.Statement i := by
  cases i with
  | rdCtrl => exact Laws.EncodedRow.rdCtrl
  | wrCtrl v => exact Laws.EncodedRow.wrCtrl v
  | rdStatus => exact Laws.EncodedRow.rdStatus
  | wrStatus v => exact Laws.EncodedRow.wrStatus v
  | rdStc => exact Laws.EncodedRow.rdStc
  | wrStc v => exact Laws.EncodedRow.wrStc v
  | rdDisp => exact Laws.EncodedRow.rdDisp
  | wrDisp v => exact Laws.EncodedRow.wrDisp v
  | rdGprobe => exact Laws.EncodedRow.rdGprobe
  | wrGprobe v => exact Laws.EncodedRow.wrGprobe v
  | rdBuf n => exact Laws.EncodedRow.rdBuf n
  | wrBuf n v => exact Laws.EncodedRow.wrBuf n v
  | rdBufterm => exact Laws.EncodedRow.rdBufterm
  | wrBufterm v => exact Laws.EncodedRow.wrBufterm v
  | rdRsvd a => exact Laws.EncodedRow.rdRsvd a
  | wrRsvd a v => exact Laws.EncodedRow.wrRsvd a v
  | tick => exact Laws.EncodedRow.tick
  | reset => exact Laws.EncodedRow.reset
  | rsvdEvent k p => exact Laws.EncodedRow.rsvdEvent k p

/-- A mask acts on each bus field. -/
theorem busWord_and (k k' : BitVec 2) (a a' : Addr) (d d' : Word) :
    busWord k a d &&& busWord k' a' d' = busWord (k &&& k') (a &&& a') (d &&& d') :=
  BitVec.and_append.trans (congrArg (· ++ (d &&& d')) BitVec.and_append)

/-- A row whose mask leaves the data field out matches a bus word whatever the data. -/
theorem OpRow.matchesWord_busWord {r : OpRow} (h : OpWord.data r.mask = 0#16) (k : BitVec 2) (a : Addr)
    (d : Word) : r.matchesWord (busWord k a d) = r.matchesWord (busWord k a 0#16) := by
  have hm := busWord_fields r.mask
  rw [OpRow.matchesWord, OpRow.matchesWord, ← hm, h, busWord_and, busWord_and, BitVec.and_zero,
    BitVec.and_zero]

/-- Only the rows of TICK and RESET look at the data field (R75). -/
theorem opTable_mask_data : ∀ r ∈ opTable, r.row = .tick ∨ r.row = .reset ∨ OpWord.data r.mask = 0#16 := by
  decide

theorem row_ne_of_isRead {i : Instr} (h : i.isRead = true) : i.row ≠ .tick ∧ i.row ≠ .reset := by
  cases i <;> simp [Instr.isRead, Instr.row] at h ⊢

/-- A word matches the row of the event it decodes to. -/
theorem matchesWord_of_row_decode {w : OpWord} {r : OpRow} (hr : r ∈ opTable)
    (hrow : r.row = (decode w).row) : r.matchesWord w = true := by
  obtain ⟨hwf, he⟩ := decode_spec w
  have h : r.matchesWord (encode (decode w)) = true := matchesWord_encode _ hwf r hr hrow
  rw [he] at h
  split at h
  next hk =>
    obtain ⟨htick, hreset⟩ := row_ne_of_isRead ((isRead_decode_iff w).mpr hk)
    obtain ht | ht | hmask := opTable_mask_data r hr
    · exact absurd (hrow ▸ ht) htick
    · exact absurd (hrow ▸ ht) hreset
    · rw [← busWord_fields w, hk, OpRow.matchesWord_busWord hmask]
      exact h
  next => exact h

/-- The shapes of a specific row: its pattern, read as a word, belongs to the row, and the row fixes KIND and
address of a bus word, or KIND and the buffer's address bits, or every bit (R75). -/
theorem opTable_specific : ∀ r ∈ opTable, r.fallback = false → (decode r.pattern).row = r.row ∧
    (r.mask = 0x3FF0000#26 ∧ OpWord.kind r.pattern ≤ 0b01#2 ∨
      r.mask = 0x3E00000#26 ∧ OpWord.kind r.pattern ≤ 0b01#2 ∧ OpWord.addr r.pattern = 0x20#8 ∨
      r.mask = 0x3FFFFFF#26) := by
  decide

theorem decodeWrite_row (a : Addr) (v v' : Word) : (decodeWrite a v).row = (decodeWrite a v').row := by
  unfold decodeWrite
  repeat' split
  all_goals rfl

/-- The row of a bus word is the row of the word with its data field cleared (R75). -/
theorem row_decode_clearData {w : OpWord} (hk : OpWord.kind w ≤ 0b01#2) :
    (decode w).row = (decode (busWord (OpWord.kind w) (OpWord.addr w) 0#16)).row := by
  obtain ⟨a, d, rfl⟩ | ⟨a, v, rfl⟩ | ⟨k, p, rfl⟩ := OpWord.cases_kind w
  · simp
  · simpa using decodeWrite_row a v 0#16
  · rw [OpWord.kind_sidebandWord] at hk
    exact absurd hk (sidebandKind_not_bus k)

/-- All bus words of the buffer cells of one KIND belong to one row (R75). -/
theorem row_decode_bufAddr {k : BitVec 2} (hk : k ≤ 0b01#2) {a : Addr} (ha : a &&& 0xE0#8 = 0x20#8) :
    (decode (busWord k a 0#16)).row = (decode (busWord k 0x20#8 0#16)).row := by
  obtain ⟨n, rfl⟩ : ∃ n, a = bufAddr n :=
    ⟨_, (bufAddr_of_high (by revert a; decide)).symm⟩
  obtain rfl | rfl : k = 0b00#2 ∨ k = 0b01#2 := by revert k; decide
  · rw [decode_busWord_read, decodeRead_bufAddr]
    rfl
  · rw [decode_busWord_write, decodeWrite_bufAddr]
    rfl

/-- Where a specific row matches a word, the decoded event belongs to it (R76). -/
theorem row_decode_of_matchesWord {w : OpWord} {r : OpRow} (hr : r ∈ opTable) (hs : r.fallback = false)
    (h : r.matchesWord w = true) : (decode w).row = r.row := by
  obtain ⟨hrow, hshape⟩ := opTable_specific r hr hs
  have hpat : w &&& r.mask = r.pattern := beq_iff_eq.mp h
  rw [← hrow]
  obtain ⟨hm, hk⟩ | ⟨hm, hk, ha⟩ | hm := hshape
  · rw [hm, and_kindAddr] at hpat
    rw [← hpat, OpWord.kind_busWord] at hk
    rw [← hpat, row_decode_clearData hk]
  · rw [hm, and_kindHigh] at hpat
    rw [← hpat, OpWord.kind_busWord] at hk
    rw [← hpat, OpWord.addr_busWord] at ha
    rw [← hpat, ha, row_decode_clearData hk, row_decode_bufAddr hk ha]
  · rw [hm, and_all] at hpat
    rw [hpat]

/-- Exactly one fallback row matches a word: the three share out the values of KIND (R76). -/
theorem fallback_matches_length (w : OpWord) :
    (opTable.filter fun r => r.fallback && r.matchesWord w).length = 1 := by
  simp only [opTable, List.filter, OpRow.matchesWord, and_kind, and_sideband, Bool.false_and, Bool.true_and]
  generalize OpWord.kind w = k
  revert k; decide

/-- Settles O4: a word matches its decoded event's row, and no specific row but this one. -/
theorem decoderFollowsTheOpcodeTable : Obligations.DecoderFollowsTheOpcodeTable := by
  intro w
  refine ⟨?_, fallback_matches_length w, fun r hfind => ?_, fun hnone => ?_⟩
  · rw [← List.countP_eq_length_filter, ← opTable_countP_row (decode w).row]
    refine List.countP_mono_left fun r hr hmatch => ?_
    obtain ⟨hs, hm⟩ : r.fallback = false ∧ r.matchesWord w = true := by simpa using hmatch
    exact beq_iff_eq.mpr (row_decode_of_matchesWord hr hs hm).symm
  · obtain ⟨hs, hm⟩ : r.fallback = false ∧ r.matchesWord w = true := by simpa using List.find?_some hfind
    exact row_decode_of_matchesWord (List.mem_of_find?_eq_some hfind) hs hm
  · obtain ⟨r, hr, hrow⟩ : ∃ r ∈ opTable, (r.row == (decode w).row) = true :=
      List.countP_pos_iff.mp (opTable_countP_row (decode w).row ▸ Nat.one_pos)
    have hm : r.matchesWord w = true := matchesWord_of_row_decode hr (beq_iff_eq.mp hrow)
    have hf : r.fallback = true := by
      simpa [hm] using List.find?_eq_none.mp hnone r hr
    obtain ⟨r', hone⟩ := List.length_eq_one_iff.mp (fallback_matches_length w)
    have hmem : r ∈ opTable.filter fun r => r.fallback && r.matchesWord w := by
      simp [List.mem_filter, hr, hm, hf]
    rw [hone, List.mem_singleton] at hmem
    refine ⟨r, ?_, (beq_iff_eq.mp hrow).symm⟩
    rw [← List.head?_filter, hone, hmem]
    rfl

/-! ### Reads (R77) -/

theorem exists_readWord_of_isRead {i : Instr} (h : i.isRead = true) : ∃ a, encode i = readWord a := by
  cases i <;> simp [Instr.isRead] at h <;> exact ⟨_, rfl⟩

/-- Settles O6: the decoder takes a read's address alone, and the encoder's read word has data 0. -/
theorem readsIgnoreTheDataField : Obligations.ReadsIgnoreTheDataField := by
  refine ⟨fun a d d' => ?_, fun i hi => ?_⟩
  · rw [decode_busWord_read, decode_busWord_read]
    exact ⟨rfl, Machine.decodeRead_isRead a⟩
  · obtain ⟨a, ha⟩ := exists_readWord_of_isRead hi
    rw [ha, readWord, OpWord.data_busWord]

end Sys2Proof

namespace Sys2Proof.Machine

/-! ### The lines of a trace (R82, R84) -/

/-- Settles O5: fifteen fixed words, each evaluated. -/
theorem workedEncodings : Obligations.WorkedEncodings := by
  unfold Obligations.WorkedEncodings
  decide

/-- An event put into a cycle stands after the events that are there. -/
theorem Cycle.words_of_add {c c' : Cycle} {w : OpWord} (h : c.add w = some c') :
    c'.words = c.words ++ [w] := by
  obtain ⟨rst, tick, bus⟩ := c
  have hside := sidebandWord_fields w
  have hone := Cycle.words_ofWord w
  cases bus with
  | some b => simp [Cycle.add] at h
  | none =>
    by_cases hreset : OpWord.kind w = 0b11#2
    · cases rst <;> cases tick <;> simp [Cycle.add, hreset] at h
      subst h
      rw [hreset] at hside
      simp [Cycle.words, hside]
    · by_cases htick : OpWord.kind w = 0b10#2
      · cases tick <;> simp [Cycle.add, htick] at h
        subst h
        rw [htick] at hside
        simp [Cycle.words, hside]
      · obtain rfl : _ = c' := by simpa [Cycle.add, hreset, htick] using h
        simpa [Cycle.words, Cycle.ofWord, hreset, htick] using hone

/-- Events put into a cycle one after another stand in their order. -/
theorem Cycle.words_of_foldlM_add {ws : List OpWord} {c c' : Cycle}
    (h : ws.foldlM Cycle.add c = some c') : c'.words = c.words ++ ws := by
  induction ws generalizing c with
  | nil => cases h; simp
  | cons w ws ih =>
    rw [List.foldlM_cons] at h
    obtain ⟨m, hm, hrest⟩ := Option.bind_eq_some_iff.mp h
    rw [ih hrest, Cycle.words_of_add hm, List.append_assoc, List.singleton_append]

theorem bufAddr_eq_add (i : CellIndex) : bufAddr i = 0x20#8 + i.setWidth 8 := by
  revert i; decide

/-- Settles O7: a line's words are put into the idle cycle one after another. -/
theorem assembledLinePresentsItsWords : Obligations.AssembledLinePresentsItsWords := by
  refine ⟨fun ws c h => ?_, fun i v => ?_⟩
  · simpa [Cycle.idle, Cycle.words] using Cycle.words_of_foldlM_add h
  · simp [Stmt.words, Reg.addr, bufAddr_eq_add]

/-! ### The reserved event (R80) -/

/-- A sideband KIND with a nonzero payload is the reserved event. -/
theorem decode_eq_rsvdEvent {w : OpWord} (hk : OpWord.kind w = 0b10#2 ∨ OpWord.kind w = 0b11#2)
    (hp : OpWord.payload w ≠ 0#24) : ∃ k, decode w = .rsvdEvent k (OpWord.payload w) := by
  obtain ⟨hread, hwrite⟩ : OpWord.kind w ≠ 0b00#2 ∧ OpWord.kind w ≠ 0b01#2 := by
    obtain h | h := hk <;> simp [h]
  exact ⟨_, by rw [decode, if_neg hread, if_neg hwrite, decodeSideband, if_neg hp]⟩

/-- Settles O9: it is the answer of RSVD_EVENT's arm. -/
theorem rsvdEventStops : Obligations.RsvdEventStops := exec_rsvdEvent

/-- Settles O8: such a word decodes to RSVD_EVENT, which is refused. -/
theorem reservedEventIsRefused : Obligations.ReservedEventIsRefused := by
  intro w s hk hp
  obtain ⟨k, h⟩ := decode_eq_rsvdEvent hk hp
  rw [h]
  exact ⟨nofun, nofun, rfl, rsvdEventStops k _ s⟩

end Sys2Proof.Machine

/-! The family 40_glyph_encoder.md: the glyph table of DISP7 (O24), and what every glyph table keeps
(O25). -/

namespace Sys2Proof.Machine

/-! ### What `glyph_for` answers with any table (R90) -/

/-- A digit's glyph is its entry of the table. -/
theorem GlyphTable.glyph_digit (t : GlyphTable) {c : Byte} (h : charZero ≤ c ∧ c ≤ charNine) :
    t.glyph c = t.digits.toList.getD (c.toNat - charZero.toNat) 0x00#8 :=
  if_pos h

/-- Every code but the digits and `'-'` is blank (R94). -/
theorem GlyphTable.glyph_eq_blank (t : GlyphTable) {c : Byte}
    (hdigit : ¬ (charZero ≤ c ∧ c ≤ charNine)) (hminus : c ≠ charMinus) : t.glyph c = 0x00#8 := by
  rw [glyph, if_neg hdigit, if_neg hminus]

@[simp] theorem GlyphTable.glyph_charMinus (t : GlyphTable) : t.glyph charMinus = t.minus := rfl

/-- The entry of `'8'`. -/
theorem GlyphTable.glyph_eight (t : GlyphTable) : t.glyph 0x38#8 = t.digits[8] := by
  rw [t.glyph_digit (by decide)]
  simp [charZero]

/-- What the table's entries and the blank code have, every glyph has. -/
theorem GlyphTable.glyph_of_entries {P : Byte → Prop} {t : GlyphTable}
    (hdigits : ∀ g ∈ t.digits.toList, P g) (hminus : P t.minus) (hblank : P 0x00#8) (c : Byte) :
    P (t.glyph c) := by
  by_cases hd : charZero ≤ c ∧ c ≤ charNine
  · rw [t.glyph_digit hd, List.getD_eq_getElem?_getD]
    cases hg : t.digits.toList[c.toNat - charZero.toNat]? with
    | none => exact hblank
    | some g => exact hdigits g (List.mem_of_getElem? hg)
  · by_cases hm : c = charMinus
    · rw [hm, glyph_charMinus]
      exact hminus
    · rw [t.glyph_eq_blank hd hm]
      exact hblank

/-! ### DISP7's table (R91-R94) -/

/-- No glyph of DISP7 has the dot's bit (R91), since no entry of its table has it. -/
theorem glyphFor_dp (c : Byte) : (glyphFor c).getLsbD 7 = false :=
  GlyphTable.glyph_of_entries (P := fun g => g.getLsbD 7 = false) (by decide) (by decide) (by decide) c

/-- Settles O24: the codes it names are evaluated, the others are blank in any table. -/
theorem glyphTableOfTheSpec : Obligations.GlyphTableOfTheSpec :=
  ⟨rfl, rfl, rfl, rfl, rfl, rfl, rfl, rfl, rfl, rfl, rfl, glyphFor_dp,
    fun _ => disp7Glyphs.glyph_eq_blank, rfl, rfl⟩

/-! ### A table that passes the check (R95) -/

/-- A nonzero byte that shares no bit with its predecessor is a single bit. -/
theorem exists_eq_one_shiftLeft_of_and_pred {m : Byte} (hne : m ≠ 0#8) (hand : m &&& (m - 1#8) = 0#8) :
    ∃ b : BitVec 3, m = 1#8 <<< b.toNat := by
  revert m; decide

theorem GlyphTable.ok_iff (t : GlyphTable) : t.ok = true ↔
    t.dpMask ≠ 0#8 ∧ t.dpMask &&& (t.dpMask - 1#8) = 0#8 ∧ t.digits[8] ||| t.dpMask = 0xFF#8 := by
  simp [ok, and_assoc]

/-- Settles O25: the blank codes of any table, the check's clauses, and the check on DISP7's table. -/
theorem glyphTablesKeepTheSourceProperties : Obligations.GlyphTablesKeepTheSourceProperties := by
  refine ⟨fun t _ => t.glyph_eq_blank, fun t hok => ?_, by decide⟩
  obtain ⟨hne, hand, hlit⟩ := t.ok_iff.mp hok
  exact ⟨exists_eq_one_shiftLeft_of_and_pred hne hand, t.glyph_eight ▸ hlit⟩

end Sys2Proof.Machine

/-! The family 41_render_tick.md: every event completes (O14), the seven steps of a TICK (O21) and its frame
(O47), the dropped tick (O22), what the next character decides (O23), what a TICK reads (O31), the display
cycle (O26, O30), and the texts it shows (O27, O28, O29). -/

namespace Sys2Proof.Machine

/-! ### One TICK -/

/-- Settles O14: only the reserved event is refused. -/
theorem everyEventCompletes : Obligations.EveryEventCompletes := by
  intro i s hi
  cases i with
  | rsvdEvent k p => simp [Instr.isRsvdEvent] at hi
  | _ => exact ⟨_, rfl⟩

/-- A TICK is executed or dropped, by EN (R100). -/
theorem exec_tick_cases {s t : State} (h : exec .tick s = .next t) :
    (s.en = true ∧ t = s.renderTick) ∨ (s.en = false ∧ t = s.dropTick) := by
  cases hen : s.en with
  | true => rw [exec_tick_of_en hen] at h; cases h; exact .inl ⟨rfl, rfl⟩
  | false => rw [exec_tick_of_not_en hen] at h; cases h; exact .inr ⟨rfl, rfl⟩

/-- Settles O47, for an executed tick and for a dropped one. -/
theorem frameOfTick : Obligations.FrameOfTick := by
  intro s t h
  obtain ⟨-, rfl⟩ | ⟨-, rfl⟩ := exec_tick_cases h
  · simp
  · simp

@[simp] theorem State.foldsDot_iff (s : State) : s.foldsDot = true ↔ s.nextChar = charDot := beq_iff_eq

@[simp] theorem State.endsText_iff (s : State) :
    s.endsText = true ↔ s.nextChar = charTerminator := beq_iff_eq

/-- An executed tick as one update of the state, with the values of its seven steps. -/
theorem State.renderTick_eq (s : State) : s.renderTick = { s with
    cc := s.nextCc, dc := s.nextDc, stc := s.stc + 1#16, segOut := s.tickGlyph, digOut := s.tickDigit,
    writes := s.tickWrites } := rfl

/-- Settles O21: each of the values is a step of the pseudocode. -/
theorem tickRunsTheSevenSteps : Obligations.TickRunsTheSevenSteps := by
  refine ⟨by decide, fun s => ⟨fun hen => ?_, fun hen => exec_tick_of_not_en hen⟩⟩
  rw [exec_tick_of_en hen, s.renderTick_eq]
  simp only [State.nextCc, State.nextDc, State.advancedDc, State.tickWrites, State.tickGlyph,
    s.foldsDot_iff, s.endsText_iff]
  rfl

/-- Settles O22: from the beginning of a cycle, where W is empty, a dropped tick answers the state as it
is, and so the events of both cycles lead to one state. -/
theorem droppedTickIsAnIdleCycle : Obligations.DroppedTickIsAnIdleCycle := by
  intro s rest hen
  refine ⟨exec_tick_of_not_en hen, ?_⟩
  have hdrop : exec .tick (s.beginCycle rest) = .next (s.beginCycle rest) := exec_tick_of_not_en hen
  calc step { s with trace := Cycle.ofInstr .tick :: rest }
      = endCycle (exec .tick (s.beginCycle rest)) :=
        step_ofWord (s := { s with trace := Cycle.ofInstr .tick :: rest }) rfl
    _ = endCycle (execAll Cycle.idle.events (s.beginCycle rest)) := by rw [hdrop]; rfl
    _ = step { s with trace := Cycle.idle :: rest } :=
      (step_cons (s := { s with trace := Cycle.idle :: rest }) rfl).symm

/-! ### What the next character decides (R105, R107) -/

/-- A next `'.'` folds into this tick's glyph, and holds DC. -/
theorem State.tick_of_dot {s : State} (h : s.nextChar = charDot) :
    s.nextCc = s.cc + 1#5 ∧ s.nextDc = s.dc ∧ s.tickGlyph = glyphFor s.currentChar ||| dpMask := by
  simp [nextCc, nextDc, advancedDc, tickGlyph, h, charDot, charTerminator]

/-- A next terminator restarts the display cycle. -/
theorem State.tick_of_terminator {s : State} (h : s.nextChar = charTerminator) :
    s.nextCc = 0#5 ∧ s.nextDc = 0#3 ∧ s.tickGlyph = glyphFor s.currentChar := by
  simp [nextCc, nextDc, tickGlyph, h, charDot, charTerminator]

/-- Any other character stands on the next digit. -/
theorem State.tick_of_other {s : State} (hdot : s.nextChar ≠ charDot)
    (hend : s.nextChar ≠ charTerminator) :
    s.nextCc = s.cc + 1#5 ∧ s.nextDc = s.dc + 1#3 ∧ s.tickGlyph = glyphFor s.currentChar := by
  simp [nextCc, nextDc, advancedDc, tickGlyph, hdot, hend]

/-- CC advances without a wrap where the text goes on: at CC = 31 the next cell is BUF[32] (R110). -/
theorem State.nextCc_toNat {s : State} (h : s.nextChar ≠ charTerminator) :
    s.nextCc.toNat = s.cc.toNat + 1 := by
  have hcc : s.cc.toNat + 1 < 32 := by
    by_contra hge
    exact h (State.cell_of_ge (by omega))
  have hnext : s.nextCc = s.cc + 1#5 := if_neg (mt s.endsText_iff.mp h)
  rw [hnext, BitVec.toNat_add_of_lt hcc]
  rfl

/-- Settles O23, one case of the next character after another. -/
theorem nextCharacterDecidesTheCursors : Obligations.NextCharacterDecidesTheCursors := by
  intro s t hen h
  rw [exec_tick_of_en hen] at h
  cases h
  refine ⟨fun hdot => ?_, State.tick_of_terminator, fun hdot hend => ?_⟩
  · obtain ⟨-, hdc, hglyph⟩ := State.tick_of_dot hdot
    exact ⟨State.nextCc_toNat (by rw [hdot]; decide), hdc, hglyph⟩
  · obtain ⟨-, hdc, hglyph⟩ := State.tick_of_other hdot hend
    exact ⟨State.nextCc_toNat hend, by simp [hdc, BitVec.toNat_add], hglyph⟩

/-- Settles O31: the two cells and the cursors decide the glyph, the digit, the next cursors and W. -/
theorem tickReadsOnlyWhatTheRulesName : Obligations.TickReadsOnlyWhatTheRulesName := by
  intro s s' t t' hen hcc hdc hstc hcur hnext h h'
  obtain ⟨hon, rfl⟩ | ⟨hoff, rfl⟩ := exec_tick_cases h
  · rw [exec_tick_of_en (hen ▸ hon)] at h'
    cases h'
    simp [State.nextCc, State.nextDc, State.advancedDc, State.tickWrites, State.tickGlyph,
      State.tickDigit, hcc, hdc, hstc, hcur, hnext]
  · rw [exec_tick_of_not_en (hen ▸ hoff)] at h'
    cases h'
    simp [hoff, hcc, hdc, hstc]

/-! ### Several ticks -/

/-- The last of several ticks. -/
theorem State.ticks_succ (n : Nat) (s : State) : s.ticks (n + 1) = (s.ticks n).renderTick := by
  induction n generalizing s with
  | zero => rfl
  | succ n ih => exact ih s.renderTick

@[simp] theorem State.ticks_en (n : Nat) (s : State) : (s.ticks n).en = s.en := by
  induction n with
  | zero => rfl
  | succ n ih => rw [ticks_succ, renderTick_en, ih]

@[simp] theorem State.ticks_cell (n : Nat) (s : State) (k : Nat) : (s.ticks n).cell k = s.cell k := by
  induction n with
  | zero => rfl
  | succ n ih => rw [ticks_succ, renderTick_cell, ih]

/-- Read data on the bus is nothing a tick reads or writes (R120). -/
theorem State.ticks_rdata (n : Nat) (s : State) (r : Option Word) :
    State.ticks n { s with rdata := r } = { s.ticks n with rdata := r } := by
  induction n with
  | zero => rfl
  | succ n ih => rw [ticks_succ, ticks_succ, ih]; rfl

/-- The ticks of more than one part. -/
theorem State.shown_add (n k : Nat) (s : State) :
    s.shown (n + k) = s.shown n ++ (s.ticks n).shown k := by
  induction n generalizing s with
  | zero => exact congrArg (shown · s) (Nat.zero_add k)
  | succ n ih =>
    rw [Nat.succ_add]
    exact congrArg _ (ih s.renderTick)

@[simp] theorem State.shown_length (n : Nat) (s : State) : (s.shown n).length = n := by
  induction n generalizing s with
  | zero => rfl
  | succ n ih => exact congrArg _ (ih s.renderTick)

/-- Each shown pair is read off the state that its tick finds (R103, R104). -/
theorem State.shown_getElem? {i n : Nat} (h : i < n) (s : State) :
    (s.shown n)[i]? = some ((s.ticks i).dc, (s.ticks i).tickGlyph) := by
  obtain ⟨k, rfl⟩ := Nat.exists_eq_add_of_lt h
  rw [Nat.add_assoc, shown_add, List.getElem?_append_right (by simp), shown_length, Nat.sub_self]
  rfl

/-- While EN = 1, ticks and reads lead to the state of the ticks alone, but for the data on the bus. -/
theorem execAll_ticks_and_reads {is : List Instr} (his : ∀ i ∈ is, i = .tick ∨ i.isRead = true)
    {s : State} (hen : s.en = true) :
    ∃ r, execAll is s = .next { s.ticks (is.count .tick) with rdata := r } := by
  induction is generalizing s with
  | nil => exact ⟨s.rdata, rfl⟩
  | cons i is ih =>
    obtain ⟨hi, hrest⟩ := List.forall_mem_cons.mp his
    obtain rfl | hread := hi
    · rw [execAll_cons (exec_tick_of_en hen), List.count_cons_self]
      exact ih hrest hen
    · obtain ⟨v, hv, -⟩ := exec_read hread s
      have hne : i ≠ .tick := by rintro rfl; simp [Instr.isRead] at hread
      obtain ⟨r, hr⟩ := ih hrest (s := s.returnData v) hen
      refine ⟨r, ?_⟩
      rw [execAll_cons hv, hr, List.count_cons_of_ne hne, State.returnData, State.ticks_rdata]

/-- `n` TICK events while EN = 1 are `n` executed ticks. -/
theorem execAll_replicate_tick (n : Nat) {s : State} (hen : s.en = true) :
    execAll (List.replicate n .tick) s = .next (s.ticks n) := by
  induction n generalizing s with
  | zero => rfl
  | succ n ih =>
    rw [List.replicate_succ, execAll_cons (exec_tick_of_en hen)]
    exact ih hen

/-- Settles O30: the n-th pair is read off the state after n ticks, and so is what the next one emits. -/
theorem shownIsWhatTicksEmit : Obligations.ShownIsWhatTicksEmit := by
  intro s n hen
  exact ⟨s.ticks n, (s.ticks n).renderTick, _, _, execAll_replicate_tick n hen,
    exec_tick_of_en (by rw [State.ticks_en, hen]), s.shown_getElem? n.lt_succ_self, rfl, rfl, rfl⟩

/-! ### The display cycle closes (R111) -/

/-- `t` is the first terminator above CC (R111). -/
structure State.FirstTerminator (s : State) (t : Nat) : Prop where
  above : s.cc.toNat < t
  le : t ≤ 32
  cell_eq : s.cell t = charTerminator
  cell_ne : ∀ k, s.cc.toNat < k → k < t → s.cell k ≠ charTerminator

/-- There is one, since BUF[32] is a terminator (R22). -/
theorem State.exists_firstTerminator (s : State) : ∃ t, s.FirstTerminator t := by
  have hend : s.cc.toNat < 32 ∧ s.cell 32 = charTerminator := ⟨s.cc.isLt, State.cell_of_ge le_rfl⟩
  have hex : ∃ t, s.cc.toNat < t ∧ s.cell t = charTerminator := ⟨32, hend⟩
  obtain ⟨habove, hcell⟩ := Nat.find_spec hex
  exact ⟨Nat.find hex, habove, Nat.find_min' hex hend, hcell,
    fun k hk hlt h0 => Nat.find_min hex hlt ⟨hk, h0⟩⟩

/-- Below the terminator CC advances by one a tick. -/
theorem State.FirstTerminator.ticks_cc {s : State} {t : Nat} (h : s.FirstTerminator t) {n : Nat}
    (hn : s.cc.toNat + n < t) : (s.ticks n).cc.toNat = s.cc.toNat + n := by
  induction n with
  | zero => rfl
  | succ n ih =>
    have hprev := ih (by omega)
    have hnext : (s.ticks n).nextChar ≠ charTerminator := by
      rw [nextChar, hprev, ticks_cell]
      exact h.cell_ne _ (by omega) hn
    rw [ticks_succ, renderTick_cc, State.nextCc_toNat hnext, hprev, Nat.add_assoc]

/-- The tick that finds the terminator next resets both cursors. -/
theorem State.FirstTerminator.ticks_reset {s : State} {t : Nat} (h : s.FirstTerminator t) {n : Nat}
    (hn : s.cc.toNat + n = t) : (s.ticks n).cc = 0#5 ∧ (s.ticks n).dc = 0#3 := by
  have habove := h.above
  obtain ⟨k, rfl⟩ : ∃ k, n = k + 1 := ⟨n - 1, by omega⟩
  have hcc := h.ticks_cc (n := k) (by omega)
  have hend : (s.ticks k).nextChar = charTerminator := by
    rw [nextChar, hcc, ticks_cell, Nat.add_assoc, hn, h.cell_eq]
  obtain ⟨hcc0, hdc0, -⟩ := State.tick_of_terminator hend
  rw [ticks_succ]
  exact ⟨hcc0, hdc0⟩

/-- The display cycle, with reads between the ticks. -/
theorem State.FirstTerminator.execAll_closes {s : State} {t : Nat} (h : s.FirstTerminator t)
    (hen : s.en = true) {is : List Instr} (his : ∀ i ∈ is, i = .tick ∨ i.isRead = true) :
    ∃ u, execAll is s = .next u ∧
      (s.cc.toNat + is.count .tick < t → u.cc.toNat = s.cc.toNat + is.count .tick) ∧
      (s.cc.toNat + is.count .tick = t → u.cc = 0#5 ∧ u.dc = 0#3) := by
  obtain ⟨r, hr⟩ := execAll_ticks_and_reads his hen
  exact ⟨_, hr, h.ticks_cc, h.ticks_reset⟩

/-! ### Loading a text (R164) -/

theorem lowByte_setWidth (c : Byte) : lowByte (c.setWidth 16) = c := by
  rw [lowByte_eq]
  exact BitVec.setWidth_setWidth_of_le c (by decide)

/-- `loadtext` from cell `k` on writes one character a cell and changes nothing else. -/
theorem execAll_loadFrom {txt : Text} {k : Nat} {s : State} (hlen : k + txt.length ≤ 32)
    (hwf : Memory.wf s.buf = true) : ∃ t, execAll (loadFrom k txt) s = .next t ∧
      t = { s with buf := t.buf } ∧ Memory.wf t.buf = true ∧
      (∀ j c, txt[j]? = some c → t.cell (k + j) = c) ∧
      ∀ j, j < k ∨ k + txt.length ≤ j → t.cell j = s.cell j := by
  induction txt generalizing k s with
  | nil => exact ⟨s, rfl, rfl, hwf, nofun, fun _ _ => rfl⟩
  | cons c rest ih =>
    rw [List.length_cons] at hlen
    have hk : (BitVec.ofNat 5 k).toNat = k := Nat.mod_eq_of_lt (by omega : k < 32)
    have hw : exec (.wrBuf (BitVec.ofNat 5 k) (c.setWidth 16)) s =
        .next (s.writeCell (BitVec.ofNat 5 k) c) := by
      rw [exec_wrBuf, lowByte_setWidth]
    have hsame : (s.writeCell (BitVec.ofNat 5 k) c).cell k = c := by
      simpa [hk] using s.writeCell_cell_same (BitVec.ofNat 5 k) c hwf
    obtain ⟨t, hrun, heq, hwf', hchars, hother⟩ := ih (k := k + 1)
      (s := s.writeCell (BitVec.ofNat 5 k) c) (by omega) (Memory.write_wf c (BitVec.isLt _) hwf)
    refine ⟨t, by rw [loadFrom, execAll_cons hw, hrun], by rw [heq]; rfl, hwf', fun j d hj => ?_,
      fun j hj => ?_⟩
    · cases j with
      | zero =>
        obtain rfl : c = d := by simpa using hj
        rw [Nat.add_zero, hother k (by omega), hsame]
      | succ j => rw [← hchars j d (by simpa using hj), Nat.add_assoc, Nat.add_comm 1]
    · rw [List.length_cons] at hj
      rw [hother j (by omega), State.writeCell_cell_other (by omega)]

/-- What the host leaves for the first tick: the text from BUF[0] on, terminators after it, rendering
enabled, and both cursors at 0. -/
structure State.Loaded (txt : Text) (m : State) : Prop where
  en : m.en = true
  cc : m.cc = 0#5
  dc : m.dc = 0#3
  cell : ∀ k, m.cell k = txt.getD k charTerminator

theorem State.Loaded.cc_toNat {txt : Text} {m : State} (h : m.Loaded txt) : m.cc.toNat = 0 := by
  rw [h.cc]; rfl

/-- Clearing the buffer, loading a text and resuming leaves the text loaded, from any state. -/
theorem execAll_load_resume {txt : Text} (hlen : txt.length ≤ 32) (s : State) :
    ∃ m, execAll (clearbuf ++ loadtext txt ++ resume) s = .next m ∧ m.Loaded txt := by
  obtain ⟨t, hload, -, -, hchars, hother⟩ := execAll_loadFrom (txt := txt) (k := 0)
    (s := s.writeCtrl 0x0004#16) (by omega) Memory.nil_wf
  have hclear : execAll (clearbuf ++ loadtext txt) s = .next t := by
    rw [execAll_append _ (execAll_singleton _ s)]
    exact hload
  refine ⟨t.writeCtrl 0x0003#16, by rw [execAll_append _ hclear]; rfl, rfl, rfl, rfl, fun k => ?_⟩
  calc (t.writeCtrl 0x0003#16).cell k = t.cell k := t.writeCtrl_cell 0x0003#16 k
    _ = txt.getD k charTerminator := by
      rw [List.getD_eq_getElem?_getD]
      cases hk : txt[k]? with
      | some c => simpa using hchars k c hk
      | none =>
        rw [hother k (.inr (by simpa using hk))]
        exact s.writeCtrl_cell 0x0004#16 k

/-- The first terminator of a loaded text is its end, or BUF[1] where it is empty: a terminator at index 0
is stepped over (R117, R118). -/
theorem State.Loaded.firstTerminator {txt : Text} {m : State} (h : m.Loaded txt)
    (hlen : txt.length ≤ 32) (hchars : ∀ c ∈ txt.tail, c ≠ charTerminator) :
    m.FirstTerminator (max 1 txt.length) := by
  have hcc := h.cc_toNat
  refine ⟨by omega, by omega, ?_, fun k hk hlt => ?_⟩
  · rw [h.cell, List.getD_eq_default _ _ (by omega)]
  · obtain ⟨j, rfl⟩ : ∃ j, k = j + 1 := ⟨k - 1, by omega⟩
    cases txt with
    | nil => simp at hlt
    | cons c rest =>
      have hj : j < rest.length := by simp at hlt; omega
      rw [h.cell, List.getD_cons_succ, List.getD_eq_getElem _ _ hj]
      exact hchars _ (List.getElem_mem hj)

/-- Settles O26: the first terminator, the cycle up to it, and the cycle of a loaded text. -/
theorem displayCycleCloses : Obligations.DisplayCycleCloses := by
  refine ⟨fun s => ?_, fun s t is hen habove hle hcell hne his => ?_, fun s txt is hlen hne his => ?_⟩
  · obtain ⟨t, h⟩ := s.exists_firstTerminator
    exact ⟨t, h.above, h.le, h.cell_eq, h.cell_ne⟩
  · exact State.FirstTerminator.execAll_closes ⟨habove, hle, hcell, hne⟩ hen his
  · obtain ⟨m, hm, hload⟩ := execAll_load_resume hlen s
    have hfirst := hload.firstTerminator hlen fun c hc => hne c (List.mem_of_mem_tail hc)
    obtain ⟨u, hu, hbefore, hat⟩ := hfirst.execAll_closes hload.en his
    rw [hload.cc_toNat, Nat.zero_add] at hbefore hat
    exact ⟨u, by rw [execAll_append _ hm, hu], fun hlt => hbefore (by omega), hat⟩

/-! ### The texts that ticks show (R112-R118) -/

/-- The (digit, glyph) pairs of a text from digit `d` on: a `'.'` after a character folds into it and holds
the digit (R105). -/
def displayCycle (d : BitVec 3) (txt : Text) : List (BitVec 3 × Byte) :=
  match txt with
  | [] => []
  | c :: rest =>
    if rest.head? = some charDot then (d, glyphFor c ||| dpMask) :: displayCycle d rest
    else (d, glyphFor c) :: displayCycle (d + 1#3) rest

theorem displayCycle_singleton (d : BitVec 3) (c : Byte) : displayCycle d [c] = [(d, glyphFor c)] := rfl

theorem displayCycle_cons_dot (d : BitVec 3) (c : Byte) (rest : Text) :
    displayCycle d (c :: charDot :: rest) =
      (d, glyphFor c ||| dpMask) :: displayCycle d (charDot :: rest) := rfl

theorem displayCycle_cons_other (d : BitVec 3) (c : Byte) {c' : Byte} (rest : Text) (h : c' ≠ charDot) :
    displayCycle d (c :: c' :: rest) = (d, glyphFor c) :: displayCycle (d + 1#3) (c' :: rest) :=
  if_neg (by simpa using h)

/-- From CC on the buffer holds the text, and a terminator after it. -/
def State.HoldsFromCc (txt : Text) (s : State) : Prop :=
  ∀ k, k ≤ txt.length → s.cell (s.cc.toNat + k) = txt.getD k charTerminator

/-- The ticks of a text show its display cycle, where no terminator stands among the characters after the
first. -/
theorem State.HoldsFromCc.shown_eq {txt : Text} {s : State} (h : s.HoldsFromCc txt)
    (hne : ∀ c ∈ txt.tail, c ≠ charTerminator) : s.shown txt.length = displayCycle s.dc txt := by
  induction txt generalizing s with
  | nil => rfl
  | cons c rest ih =>
    have hcur : s.currentChar = c := h 0 (Nat.zero_le _)
    have hnext : s.nextChar = rest.getD 0 charTerminator := h 1 (by simp)
    cases rest with
    | nil =>
      obtain ⟨-, -, hglyph⟩ := State.tick_of_terminator hnext
      rw [List.length_singleton, displayCycle_singleton, ← hcur, ← hglyph]
      rfl
    | cons c' rest =>
      replace hnext : s.nextChar = c' := hnext
      have hgoes : s.nextChar ≠ charTerminator := hnext ▸ hne c' List.mem_cons_self
      have hrest : s.renderTick.HoldsFromCc (c' :: rest) := fun k hk => by
        rw [renderTick_cell, renderTick_cc, State.nextCc_toNat hgoes, Nat.add_assoc, Nat.add_comm 1]
        exact h (k + 1) (Nat.succ_le_succ hk)
      have htail := ih hrest fun d hd => hne d (List.mem_cons_of_mem c' hd)
      rw [List.length_cons, State.shown, htail, renderTick_dc]
      by_cases hdot : c' = charDot
      · obtain ⟨-, hdc, hglyph⟩ := State.tick_of_dot (hnext.trans hdot)
        rw [hdc, hglyph, hcur, hdot, displayCycle_cons_dot]
      · obtain ⟨-, hdc, hglyph⟩ := State.tick_of_other (hnext ▸ hdot) hgoes
        rw [hdc, hglyph, hcur, displayCycle_cons_other _ _ _ hdot]

/-- The ticks of a loaded text show its display cycle from digit 0 on. -/
theorem State.Loaded.shown_eq {txt : Text} {m : State} (h : m.Loaded txt)
    (hne : ∀ c ∈ txt.tail, c ≠ charTerminator) : m.shown txt.length = displayCycle 0#3 txt := by
  rw [← h.dc]
  exact State.HoldsFromCc.shown_eq (fun k _ => by rw [h.cc_toNat, Nat.zero_add, h.cell]) hne

/-- At the end of its display cycle a text is loaded again. -/
theorem State.Loaded.loaded_again {txt : Text} {m : State} (h : m.Loaded txt) (hpos : 1 ≤ txt.length)
    (hlen : txt.length ≤ 32) (hne : ∀ c ∈ txt.tail, c ≠ charTerminator) :
    (m.ticks txt.length).Loaded txt := by
  have hfirst := h.firstTerminator hlen hne
  have hcc := h.cc_toNat
  obtain ⟨hcc', hdc'⟩ := hfirst.ticks_reset (n := txt.length) (by omega)
  exact ⟨by rw [ticks_en, h.en], hcc', hdc', fun k => by rw [ticks_cell, h.cell]⟩

/-- The empty text is shown as one blank character (R117). -/
theorem State.Loaded.of_nil {m : State} (h : m.Loaded []) : m.Loaded [charTerminator] :=
  ⟨h.en, h.cc, h.dc, fun k => by rw [h.cell]; cases k <;> rfl⟩

/-! ### Slots and digits (R112, R114) -/

/-- The digit slots of a text: its characters other than `'.'` (R112). -/
def slotCount (txt : Text) : Nat := txt.countP (· != charDot)

theorem slotCount_cons (c : Byte) (txt : Text) :
    slotCount (c :: txt) = slotCount txt + if c = charDot then 0 else 1 := by
  by_cases hc : c = charDot <;> simp [slotCount, hc]

/-- The pair of character `i`: its digit is one further than `d` for each slot that begins after character 0
and no later than character `i`. -/
theorem displayCycle_getElem? {txt : Text} {i : Nat} {c : Byte} (hc : txt[i]? = some c) (d : BitVec 3) :
    (displayCycle d txt)[i]? = some (d + BitVec.ofNat 3 (slotCount (txt.tail.take i)),
      if txt[i + 1]? = some charDot then glyphFor c ||| dpMask else glyphFor c) := by
  induction txt generalizing i d with
  | nil => simp at hc
  | cons c₀ rest ih =>
    cases rest with
    | nil =>
      obtain ⟨rfl, rfl⟩ : i = 0 ∧ c₀ = c := by cases i <;> simp_all
      simp [displayCycle_singleton, slotCount]
    | cons c₁ rest =>
      by_cases hdot : c₁ = charDot
      · subst hdot
        rw [displayCycle_cons_dot]
        cases i with
        | zero => simp_all [slotCount]
        | succ i => simpa [slotCount_cons] using ih (i := i) hc d
      · rw [displayCycle_cons_other _ _ _ hdot]
        cases i with
        | zero => simp_all [slotCount]
        | succ i =>
          rw [List.getElem?_cons_succ, ih (i := i) hc (d + 1#3)]
          simp [slotCount_cons, hdot, BitVec.ofNat_add, BitVec.add_assoc, BitVec.add_comm]

theorem slotCount_take_succ_le (txt : Text) (i : Nat) : slotCount (txt.take (i + 1)) ≤ slotCount txt :=
  (List.take_sublist _ _).countP_le

/-- No `'.'` follows another one (R165). -/
theorem noDoubleDot_getElem? {txt : Text} (h : noDoubleDot txt = true) {i : Nat}
    (hi : txt[i]? = some charDot) : txt[i + 1]? ≠ some charDot := by
  induction txt generalizing i with
  | nil => simp
  | cons c rest ih =>
    obtain ⟨hhead, hrest⟩ : (c = charDot → rest.head? ≠ some charDot) ∧ noDoubleDot rest = true := by
      simpa [noDoubleDot, imp_iff_not_or] using h
    cases i with
    | zero => simpa [← List.head?_eq_getElem?] using hhead (by simpa using hi)
    | succ i => exact ih hrest hi

/-- Every slot of a text begins at one of its characters. -/
theorem exists_slotCount_take {txt : Text} {d : Nat} (h : d < slotCount txt) :
    ∃ i < txt.length, slotCount (txt.take (i + 1)) = d + 1 := by
  induction txt generalizing d with
  | nil => simp [slotCount] at h
  | cons c rest ih =>
    rw [slotCount_cons] at h
    by_cases hc : c = charDot
    · obtain ⟨i, hi, hcount⟩ := ih (by simpa [hc] using h)
      exact ⟨i + 1, Nat.succ_lt_succ hi, by simp [slotCount_cons, hc, hcount]⟩
    · cases d with
      | zero => exact ⟨0, Nat.succ_pos _, by simp [slotCount, hc]⟩
      | succ d =>
        obtain ⟨i, hi, hcount⟩ := ih (d := d) (by simpa [hc] using h)
        exact ⟨i + 1, Nat.succ_lt_succ hi, by simp [slotCount_cons, hc, hcount]⟩

/-- A text that does not begin with a `'.'`: the number of the slot of character `i`, counted from its
first. -/
theorem slotCount_take_succ {txt : Text} {i : Nat} (hi : i < txt.length)
    (hhead : txt.head? ≠ some charDot) :
    slotCount (txt.take (i + 1)) = slotCount (txt.tail.take i) + 1 := by
  cases txt with
  | nil => simp at hi
  | cons c rest =>
    have hc : c ≠ charDot := by simpa using hhead
    simp [slotCount_cons, hc]

/-- The digit that tick `i` of a loaded text finds. -/
theorem State.Loaded.ticks_dc {txt : Text} {m : State} (h : m.Loaded txt)
    (hne : ∀ c ∈ txt.tail, c ≠ charTerminator) {i : Nat} (hi : i < txt.length) :
    (m.ticks i).dc = BitVec.ofNat 3 (slotCount (txt.tail.take i)) := by
  have hpair := displayCycle_getElem? (List.getElem?_eq_getElem hi) 0#3
  rw [← h.shown_eq hne, m.shown_getElem? hi, BitVec.zero_add] at hpair
  exact congrArg Prod.fst (Option.some.inj hpair)

/-- A text of slots, shown: each character on the digit of its slot's number modulo 8, with the dot after it
folded in; a dot is blank (R112, R114). -/
theorem State.Loaded.shown_slot {txt : Text} {m : State} (h : m.Loaded txt)
    (hne : ∀ c ∈ txt.tail, c ≠ charTerminator) (hhead : txt.head? ≠ some charDot)
    (hdots : noDoubleDot txt = true) {i : Nat} {c : Byte} (hc : txt[i]? = some c) :
    (m.shown txt.length)[i]? = some (BitVec.ofNat 3 (slotCount (txt.take (i + 1)) - 1),
      if c = charDot then 0x00#8
      else if txt[i + 1]? = some charDot then glyphFor c ||| dpMask else glyphFor c) := by
  obtain ⟨hi, -⟩ := List.getElem?_eq_some_iff.mp hc
  rw [h.shown_eq hne, displayCycle_getElem? hc, slotCount_take_succ hi hhead, Nat.add_sub_cancel,
    BitVec.zero_add]
  by_cases hdot : c = charDot
  · subst hdot
    rw [if_neg (noDoubleDot_getElem? hdots hc), if_pos rfl]
    rfl
  · rw [if_neg hdot]

/-- With at most 8 slots each one has its own digit, and no other digit is energized. -/
theorem State.Loaded.exists_mem_shown_iff {txt : Text} {m : State} (h : m.Loaded txt)
    (hne : ∀ c ∈ txt.tail, c ≠ charTerminator) (hhead : txt.head? ≠ some charDot)
    (hdots : noDoubleDot txt = true) (hslots : slotCount txt ≤ 8) (d : BitVec 3) :
    (∃ g, (d, g) ∈ m.shown txt.length) ↔ d.toNat < slotCount txt := by
  constructor
  · rintro ⟨g, hmem⟩
    obtain ⟨i, hi⟩ := List.mem_iff_getElem?.mp hmem
    obtain ⟨hlt, -⟩ := List.getElem?_eq_some_iff.mp hi
    rw [State.shown_length] at hlt
    have hd : BitVec.ofNat 3 (slotCount (txt.take (i + 1)) - 1) = d := by
      rw [h.shown_slot hne hhead hdots (List.getElem?_eq_getElem hlt)] at hi
      exact congrArg Prod.fst (Option.some.inj hi)
    have hle := slotCount_take_succ_le txt i
    have hpos := slotCount_take_succ hlt hhead
    rw [← hd, BitVec.toNat_ofNat, Nat.mod_eq_of_lt (by omega)]
    omega
  · intro hd
    obtain ⟨i, hi, hcount⟩ := exists_slotCount_take hd
    have hshown := h.shown_slot hne hhead hdots (List.getElem?_eq_getElem hi)
    rw [hcount, Nat.add_sub_cancel, BitVec.ofNat_toNat, BitVec.setWidth_eq] at hshown
    exact ⟨_, List.mem_of_getElem? hshown⟩

/-- Settles O27: such a text holds no terminator, and its run leaves it loaded. -/
theorem slotsAreShownOnTheirDigits : Obligations.SlotsAreShownOnTheirDigits := by
  intro s m txt _ hlen hchars hhead hdots hrun
  obtain ⟨m', hm', h⟩ := execAll_load_resume hlen s
  obtain rfl : m = m' := Host.Outcome.next.inj (hrun.symm.trans hm')
  have hne : ∀ c ∈ txt.tail, c ≠ charTerminator := fun c hc =>
    textChar_ne_terminator (List.all_eq_true.mp hchars c (List.mem_of_mem_tail hc))
  exact ⟨fun i c hc => h.shown_slot hne hhead hdots hc,
    fun hslots d => h.exists_mem_shown_iff hne hhead hdots hslots d⟩

/-! ### Texts as examples (R113, R115-R118) -/

/-- After its display cycle a text is shown from its first pair again. -/
theorem State.Loaded.shown_again {txt : Text} {m : State} (h : m.Loaded txt) (hpos : 1 ≤ txt.length)
    (hlen : txt.length ≤ 32) (hne : ∀ c ∈ txt.tail, c ≠ charTerminator) :
    m.shown (txt.length + 1) = displayCycle 0#3 txt ++ (displayCycle 0#3 txt).take 1 := by
  have hagain := (h.loaded_again hpos hlen hne).shown_eq hne
  obtain ⟨k, hk⟩ : ∃ k, txt.length = k + 1 := ⟨txt.length - 1, by omega⟩
  rw [State.shown_add, h.shown_eq hne, ← hagain, hk]
  rfl

/-- Settles O28: the pattern's display cycle is evaluated, and closes at its 16th tick. -/
theorem startupPatternIsShown : Obligations.StartupPatternIsShown := by
  intro s
  have hne : ∀ c ∈ startupText.tail, c ≠ charTerminator := by decide
  obtain ⟨m, hm, h⟩ := execAll_load_resume (txt := startupText) (by decide) s
  have hshown : m.shown 16 = displayCycle 0#3 startupText := h.shown_eq hne
  have hcc := (h.firstTerminator (by decide) hne).ticks_cc (n := 15) (by rw [h.cc]; decide)
  obtain ⟨-, hcc16, hdc16, -⟩ := h.loaded_again (by decide) (by decide) hne
  exact ⟨m, hm, hshown.trans (by decide), BitVec.eq_of_toNat_eq (by rw [hcc, h.cc_toNat]; rfl),
    (h.ticks_dc hne (by decide)).trans (by decide), hcc16, hdc16⟩

/-- Settles O29: the tick of a dot, and the display cycle of each text. -/
theorem malformedTextsAreRendered : Obligations.MalformedTextsAreRendered := by
  intro s
  refine ⟨fun hen hcur hdot hend => ?_, fun hen hcur hdot => ?_, ?_, ?_, ?_, ?_⟩
  · obtain ⟨-, hdc, hglyph⟩ := State.tick_of_other hdot hend
    exact ⟨_, exec_tick_of_en hen, by rw [State.renderTick_segOut, hglyph, hcur]; rfl, rfl, hdc⟩
  · obtain ⟨-, hdc, hglyph⟩ := State.tick_of_dot hdot
    exact ⟨_, exec_tick_of_en hen, by rw [State.renderTick_segOut, hglyph, hcur]; rfl, rfl, hdc⟩
  · obtain ⟨m, hm, h⟩ := execAll_load_resume (txt := [0x38#8, 0x2E#8, 0x2E#8, 0x38#8]) (by decide) s
    exact ⟨m, hm, (h.shown_eq (by decide)).trans (by decide)⟩
  · obtain ⟨m, hm, h⟩ := execAll_load_resume (txt := [0x31#8, 0x32#8, 0x33#8, 0x34#8, 0x35#8, 0x36#8,
      0x37#8, 0x38#8, 0x39#8]) (by decide) s
    exact ⟨m, hm, (congrArg (·[8]?) (h.shown_eq (by decide))).trans (by decide)⟩
  · obtain ⟨m, hm, h⟩ := execAll_load_resume (txt := []) (by decide) s
    exact ⟨m, hm, h.of_nil.shown_again (by decide) (by decide) (by decide),
      (h.of_nil.loaded_again (by decide) (by decide) (by decide)).cc⟩
  · obtain ⟨m, hm, h⟩ := execAll_load_resume (txt := [0x00#8, 0x35#8]) (by decide) s
    exact ⟨m, hm, h.shown_again (by decide) (by decide) (by decide)⟩

end Sys2Proof.Machine

/-! The family 42_bus_registers.md: what each bus read returns and changes nothing by (O33 to O41), what each
bus write does and leaves as it was (O42 to O46, O48), and `resume` (O52). -/

namespace Sys2Proof

/-! ### Words of the register map -/

/-- The data of a write word stands in its low 16 bits (R70). -/
theorem writeWord_eq_or (a : Addr) (v : Word) : writeWord a v = writeWord a 0#16 ||| v.setWidth 26 := by
  apply BitVec.eq_of_getLsbD_eq
  intro i hi
  rw [BitVec.getLsbD_or, writeWord, writeWord, busWord_getLsbD, busWord_getLsbD]
  by_cases hlow : i < 16
  · simp [hlow, hi]
  · simp [hlow, BitVec.getLsbD_of_ge v i (by omega)]

/-- The cell's index stands in the address of a buffer read (R38, R71). -/
theorem readWord_bufAddr (i : CellIndex) :
    readWord (bufAddr i) = 0x0200000#26 ||| i.setWidth 26 <<< 16 := by
  revert i; decide

/-- The two ranges of reserved addresses (R40). -/
theorem reservedAddr_of_range {a : Addr} (h : (0x05#8 ≤ a ∧ a ≤ 0x1F#8) ∨ 0x41#8 ≤ a) :
    reservedAddr a = true := by
  simpa [reservedAddr] using h

end Sys2Proof

namespace Sys2Proof.Machine

/-! ### The value of each register -/

/-- The value of two bit strings put together, the second one low (R10). -/
theorem toNat_append_eq_add {m n : Nat} (x : BitVec m) (y : BitVec n) :
    (x ++ y).toNat = 2 ^ n * x.toNat + y.toNat := by
  rw [BitVec.toNat_append, ← Nat.shiftLeft_add_eq_or_of_lt y.isLt, Nat.shiftLeft_eq, Nat.mul_comm]

theorem pairWord_toNat (hi lo : Byte) : (pairWord hi lo).toNat = 256 * hi.toNat + lo.toNat :=
  toNat_append_eq_add hi lo

theorem State.ctrlWord_eq (s : State) : s.ctrlWord = if s.en then 0x0001#16 else 0x0000#16 := by
  unfold State.ctrlWord
  cases s.en with
  | true => rfl
  | false => rfl

theorem State.statusWord_toNat (s : State) :
    s.statusWord.toNat = (if s.en then 256 else 0) + 32 * s.dc.toNat + s.cc.toNat := by
  simp only [State.statusWord, toNat_append_eq_add, BitVec.toNat_ofBool]
  cases s.en with
  | true => simp; omega
  | false => simp

theorem State.bufWord_toNat (i : CellIndex) (s : State) : (s.bufWord i).toNat = (s.cell i.toNat).toNat :=
  BitVec.toNat_setWidth_of_le (by decide)

@[simp] theorem State.buftermWord_eq (s : State) : s.buftermWord = 0x0000#16 := by
  simp [State.buftermWord]

/-! ### Bus reads -/

/-- Settles O33: CTRL reads EN, which the write of 0x0007 has set. -/
theorem rdCtrlReturnsEn : Obligations.RdCtrlReturnsEn := by
  refine ⟨rfl, fun s => ?_, fun s => ⟨_, _, exec_wrCtrl _ s, exec_rdCtrl _, ?_⟩⟩
  · rw [exec_rdCtrl, State.ctrlWord_eq]; rfl
  · rw [State.returnData_rdata, State.ctrlWord_eq, State.writeCtrl_en]; rfl

/-- Settles O34, by the value of the fields put together. -/
theorem rdStatusReturnsCursorsAndEn : Obligations.RdStatusReturnsCursorsAndEn :=
  ⟨rfl, fun s => ⟨_, exec_rdStatus s, s.statusWord_toNat, Nat.le_of_lt_succ s.cc.isLt⟩⟩

/-- Settles O35: the read of a cycle acts on the state that its tick leaves. -/
theorem rdStcReturnsTheCounter : Obligations.RdStcReturnsTheCounter := by
  refine ⟨exec_rdStc, fun s rest h hen => ?_⟩
  have htick : execAll [.tick] (s.beginCycle rest) = .next (s.beginCycle rest).renderTick := by
    rw [execAll_singleton, exec_tick_of_en (s := s.beginCycle rest) hen]
  exact ⟨_, step_ofPorts_access h htick (exec_rdStc _), by simp [State.busRdata]⟩

/-- Settles O36: DISP reads the outputs, which a RESET clears. -/
theorem rdDispReturnsTheOutputs : Obligations.RdDispReturnsTheOutputs := by
  refine ⟨rfl, fun s => ⟨_, exec_rdDisp s, pairWord_toNat s.digOut s.segOut⟩,
    fun s => ⟨_, _, exec_reset s, exec_rdDisp _, ?_⟩⟩
  rw [State.returnData_rdata, State.dispWord, State.resetAll_digOut, State.resetAll_segOut]
  rfl

/-- Settles O37; both codes of its corner cases are blank. -/
theorem rdGprobeReturnsGlyphAndCode : Obligations.RdGprobeReturnsGlyphAndCode := by
  refine ⟨rfl, fun s => ⟨_, exec_rdGprobe s, pairWord_toNat (glyphFor s.gp) s.gp, fun h => ?_, fun h => ?_⟩⟩
  · rw [State.gprobeWord, h]; rfl
  · rw [State.gprobeWord, h]; rfl

/-- Settles O38: BUFi reads the cell, which a CTRL write with CLR has cleared. -/
theorem rdBufReturnsTheCell : Obligations.RdBufReturnsTheCell := by
  refine fun i s => ⟨readWord_bufAddr i, ⟨_, exec_rdBuf i s, s.bufWord_toNat i⟩,
    fun v hv => ⟨_, _, exec_wrCtrl v s, exec_rdBuf i _, ?_⟩⟩
  have hclr : ctrlClr v = true := hv
  rw [State.returnData_rdata, State.bufWord, State.writeCtrl_cell, hclr]
  rfl

/-- Settles O39: BUF[32] is the hardwired terminator. -/
theorem rdBuftermReturnsZero : Obligations.RdBuftermReturnsZero := by
  refine ⟨rfl, fun s => ?_⟩
  rw [exec_rdBufterm, State.buftermWord_eq]
  rfl

/-- Settles O40: no specific row takes a reserved address. -/
theorem rdRsvdReturnsZero : Obligations.RdRsvdReturnsZero := by
  refine fun a s => ⟨exec_rdRsvd a s, fun ha => ?_⟩
  rw [decode_busWord_read, decodeRead_reserved (reservedAddr_of_range ha)]

/-! ### CTRL -/

/-- A CTRL write as one update of the state (R131). -/
theorem State.writeCtrl_eq (v : Word) (s : State) : s.writeCtrl v = { s with
    en := ctrlEn v
    cc := if ctrlCrst v then 0#5 else s.cc
    dc := if ctrlCrst v then 0#3 else s.dc
    buf := if ctrlClr v then [] else s.buf } := by
  unfold State.writeCtrl
  cases ctrlCrst v <;> cases ctrlClr v <;> rfl

/-- The same value written again changes nothing more: each bit sets its element to a constant. -/
theorem State.writeCtrl_writeCtrl (v : Word) (s : State) :
    (s.writeCtrl v).writeCtrl v = s.writeCtrl v := by
  simp +contextual [State.writeCtrl_eq]

/-- Settles O41: a read changes nothing but the read data, which no read's value depends on, and a CTRL
write repeated sets the same elements to the same values. -/
theorem readsHaveNoSideEffect : Obligations.ReadsHaveNoSideEffect := by
  refine ⟨fun i j s t hi h => ?_, fun v s t h => ?_, fun v s t hv h => ?_⟩
  · obtain ⟨v, hv, hagain⟩ := exec_read hi s
    obtain rfl : s.returnData v = t := by simpa [hv] using h
    refine ⟨rfl, hagain (some v), fun hj => ?_⟩
    obtain ⟨w, hw, hsame⟩ := exec_read hj s
    exact (hsame (some v)).trans hw.symm
  · obtain rfl : s.writeCtrl v = t := by simpa using h
    rw [exec_wrCtrl, State.writeCtrl_writeCtrl]
  · obtain rfl : s.writeCtrl v = t := by simpa using h
    have hcrst : ctrlCrst v = true := hv
    simp [hcrst]

/-- Settles O42: the fields at once, and the cells by CLR. -/
theorem wrCtrlActsInOneEvent : Obligations.WrCtrlActsInOneEvent := by
  refine fun v s => ⟨_, exec_wrCtrl v s, ?_, s.writeCtrl_cell v⟩
  rw [State.writeCtrl_eq]
  rfl

/-- Settles O52: CRST and EN in one write, and the tick after it renders BUF[0] on digit 0. -/
theorem resumeStartsAtZero : Obligations.ResumeStartsAtZero := by
  refine ⟨rfl, fun s => ⟨s.writeCtrl 0x0003#16, _, execAll_singleton _ s, s.writeCtrl_eq _,
    exec_tick_of_en rfl, rfl, ?_⟩⟩
  exact s.writeCtrl_cell 0x0003#16 0

/-! ### The other bus writes -/

/-- Settles O43: the write of a cycle acts on the state that its tick leaves. -/
theorem wrStcSetsTheCounter : Obligations.WrStcSetsTheCounter :=
  ⟨exec_wrStc, fun v _ _ h => ⟨_, step_tick_write h (exec_wrStc v _), by simp⟩⟩

/-- Settles O44: the low byte of the data is the code. -/
theorem wrGprobeSetsTheCode : Obligations.WrGprobeSetsTheCode := by
  refine fun v s => ⟨writeWord_eq_or 0x04#8 v, ?_⟩
  rw [exec_wrGprobe, lowByte_eq]
  rfl

/-- Settles O45, by the laws of a written cell; no meaning of a write asks for EN. -/
theorem wrBufStoresTheCharacter : Obligations.WrBufStoresTheCharacter := by
  refine fun i v s => ⟨_, exec_wrBuf i v s, fun hwf => ⟨?_, Memory.write_wf _ i.isLt hwf⟩,
    fun k hk => State.writeCell_cell_other hk, rfl⟩
  rw [State.writeCell_cell_same i _ hwf, lowByte_eq]

/-- Settles O46: the four writes answer the state as it is, and no specific row takes a reserved address. -/
theorem ignoredWritesChangeNothing : Obligations.IgnoredWritesChangeNothing := by
  refine fun v a s => ⟨exec_wrStatus v s, exec_wrDisp v s, exec_wrBufterm v s, State.cell_of_ge le_rfl,
    exec_wrRsvd a v s, fun ha => ?_⟩
  rw [decode_busWord_write, decodeWrite_reserved (reservedAddr_of_range ha)]

/-- Settles O48, for the ignored writes and for each of the four that change something. -/
theorem frameOfBusWrites : Obligations.FrameOfBusWrites := by
  intro i s t hi h
  obtain ⟨hread, -⟩ | ⟨-, rfl⟩ | ⟨v, rfl, rfl⟩ | ⟨v, rfl, rfl⟩ | ⟨v, rfl, rfl⟩ | ⟨n, v, rfl, rfl⟩ |
    ⟨rfl, -, -⟩ | ⟨rfl, -, -⟩ | ⟨rfl, -⟩ := exec_cases h
  · simp [isRead_eq_false_of_isWrite hi] at hread
  · simp
  · simp +contextual [State.writeCtrl_cell, ctrlClr]
  · simp
  · simp
  · have hcell (k : Nat) (hk : k ≠ n.toNat) : (s.writeCell n (lowByte v)).cell k = s.cell k :=
      State.writeCell_cell_other hk
    simpa using hcell
  · cases hi
  · cases hi
  · cases hi

end Sys2Proof.Machine

/-! The family 45_host_sequences.md: every cycle hardware can present completes (O13), what `suspend`,
`clearbuf` and `loadtext` do (O51, O53), the rewrites BOOT and REFRESH (O54, O55), and a host that keeps its
duties (O56). -/

namespace Sys2Proof.Machine

/-! ### Every cycle completes (R176, R180) -/

/-- An event leaves what the outside has yet to present. -/
theorem exec_trace {i : Instr} {s t : State} (h : exec i s = .next t) : t.trace = s.trace := by
  obtain ⟨-, v, rfl⟩ | ⟨-, rfl⟩ | ⟨v, -, rfl⟩ | ⟨v, -, rfl⟩ | ⟨v, -, rfl⟩ | ⟨n, v, -, rfl⟩ |
    ⟨-, -, rfl⟩ | ⟨-, -, rfl⟩ | ⟨-, rfl⟩ := exec_cases h <;> simp

/-- Events without a reserved one complete, and leave what the outside has yet to present. -/
theorem execAll_completes {is : List Instr} (his : ∀ i ∈ is, i.isRsvdEvent = false) (s : State) :
    ∃ t, execAll is s = .next t ∧ t.trace = s.trace := by
  induction is generalizing s with
  | nil => exact ⟨s, rfl, rfl⟩
  | cons i is ih =>
    obtain ⟨hi, hrest⟩ := List.forall_mem_cons.mp his
    obtain ⟨m, hm⟩ := everyEventCompletes i s hi
    obtain ⟨t, ht, htr⟩ := ih hrest m
    exact ⟨t, by rw [execAll_cons hm, ht], htr.trans (exec_trace hm)⟩

/-- Without a reserved event among those presented, none takes effect. -/
theorem isRsvdEvent_eq_false_of_mem_effective {is : List Instr} (his : ∀ i ∈ is, i.isRsvdEvent = false)
    {i : Instr} (hi : i ∈ effective is) : i.isRsvdEvent = false := by
  have hnone : is.find? Instr.isRsvdEvent = none := by simpa using his
  simp only [effective, hnone] at hi
  split_ifs at hi with hr
  · rw [List.mem_singleton.mp hi]; rfl
  · exact his i hi

/-- A reserved event among those presented leaves a reserved event alone (log 2). -/
theorem effective_of_mem_isRsvdEvent {is : List Instr} (h : ∃ i ∈ is, i.isRsvdEvent = true) :
    ∃ k p, effective is = [.rsvdEvent k p] := by
  obtain ⟨j, hj⟩ := Option.isSome_iff_exists.mp (List.find?_isSome.mpr h)
  have hrsvd := List.find?_some hj
  cases j with
  | rsvdEvent k p => exact ⟨k, p, by simp [effective, hj]⟩
  | _ => cases hrsvd

/-- A sideband word spells the reserved event exactly where it carries a payload (R80). -/
theorem isRsvdEvent_decode_sidebandWord (k : BitVec 1) (p : Payload) :
    (decode (sidebandWord (0b1#1 ++ k) p)).isRsvdEvent = (p != 0#24) := by
  rw [decode_sidebandWord, decodeSideband]
  split_ifs with hp hk
  · simp [hp, Instr.isRsvdEvent]
  · simp [hp, Instr.isRsvdEvent]
  · simp [hp, Instr.isRsvdEvent]

/-- A cycle is real exactly where it presents no reserved event. -/
theorem Cycle.real_iff (c : Cycle) :
    c.real = true ↔ ∀ i ∈ c.words.map decode, i.isRsvdEvent = false := by
  have hrst := isRsvdEvent_decode_sidebandWord 1#1
  have htick := isRsvdEvent_decode_sidebandWord 0#1
  have hbus (b : BusAccess) := (decode_busAccess b).1
  simp only [BitVec.reduceAppend] at hrst htick
  simp [Cycle.real, Cycle.words, Option.all_eq_true, or_imp, forall_and, hrst, htick, hbus]

/-- Settles O13: a real cycle presents no reserved event, and any other presents one. -/
theorem everyRealCycleCompletes : Obligations.EveryRealCycleCompletes := by
  refine fun s => ⟨fun hreal => ?_, fun c rest htr hreal => ?_⟩
  · cases htr : s.trace with
    | nil => exact ⟨_, step_nil htr, by simp⟩
    | cons c rest =>
      have hc := c.real_iff.mp (hreal c (by rw [htr]; rfl))
      obtain ⟨m, hm, htrace⟩ := execAll_completes
        (fun i => isRsvdEvent_eq_false_of_mem_effective hc (i := i)) (s.beginCycle rest)
      exact ⟨m.clockEdge, by rw [step_cons htr, Cycle.events, hm, endCycle_next], by simp [htrace]⟩
  · have hrsvd : ∃ i ∈ c.words.map decode, i.isRsvdEvent = true := by
      by_contra hno
      simp only [not_exists, not_and, Bool.not_eq_true] at hno
      simp [c.real_iff.mpr hno] at hreal
    obtain ⟨k, p, hkp⟩ := effective_of_mem_isRsvdEvent hrsvd
    rw [step_cons htr, Cycle.events, hkp]
    rfl

/-! ### Loading a text -/

/-- Settles O51: each is one CTRL write. -/
theorem suspendAndClearbuf : Obligations.SuspendAndClearbuf :=
  ⟨rfl, rfl, fun s => ⟨rfl, s.writeCtrl 0x0004#16, rfl, rfl, s.writeCtrl_cell 0x0004#16⟩⟩

@[simp] theorem loadFrom_length (k : Nat) (txt : Text) : (loadFrom k txt).length = txt.length := by
  induction txt generalizing k with
  | nil => rfl
  | cons c rest ih => simp [loadFrom, ih]

/-- Character `j` is written to cell `k + j`. -/
theorem loadFrom_getElem? {txt : Text} {j : Nat} {c : Byte} (k : Nat) (hc : txt[j]? = some c) :
    (loadFrom k txt)[j]? = some (.wrBuf (BitVec.ofNat 5 (k + j)) (c.setWidth 16)) := by
  induction txt generalizing k j with
  | nil => simp at hc
  | cons d rest ih =>
    cases j with
    | zero =>
      obtain rfl : d = c := by simpa using hc
      rfl
    | succ j =>
      have hrest := ih (k + 1) (by simpa using hc)
      rwa [Nat.add_right_comm] at hrest

/-- Clearing the buffer and loading a text leaves the text and terminators after it, and EN = 0. -/
theorem execAll_clear_load {txt : Text} (hlen : txt.length ≤ 32) (s : State) :
    ∃ t, execAll (clearbuf ++ loadtext txt) s = .next t ∧
      t = { s with en := false, buf := t.buf } ∧ ∀ k, t.cell k = txt.getD k 0x00#8 := by
  obtain ⟨t, hload, heq, -, hchars, hother⟩ := execAll_loadFrom (txt := txt) (k := 0)
    (s := s.writeCtrl 0x0004#16) (by omega) Memory.nil_wf
  refine ⟨t, by rw [execAll_append _ (execAll_singleton _ s)]; exact hload, heq, fun k => ?_⟩
  rw [List.getD_eq_getElem?_getD]
  cases hk : txt[k]? with
  | some c => simpa using hchars k c hk
  | none =>
    rw [hother k (.inr (by simpa using hk))]
    exact s.writeCtrl_cell 0x0004#16 k

/-- Settles O53: one write a character, and what the writes leave. -/
theorem loadtextWritesTheText : Obligations.LoadtextWritesTheText := by
  intro txt s hlen hwf
  refine ⟨loadFrom_length 0 txt, fun k c hc => ?_, ?_, ?_⟩
  · simpa [loadtext] using loadFrom_getElem? 0 hc
  · obtain ⟨t, hrun, heq, -, hchars, hother⟩ :=
      execAll_loadFrom (txt := txt) (k := 0) (by omega) hwf
    exact ⟨t, hrun, heq, fun k c hc => by simpa using hchars k c hc,
      fun k hk => hother k (.inr (by omega))⟩
  · obtain ⟨u, hu, -, hcell⟩ := execAll_clear_load hlen s
    exact ⟨u, hu, by rw [hcell, List.getD_eq_default _ _ le_rfl]⟩

/-! ### A rewrite of the buffer (R167, R169) -/

/-- What BOOT and REFRESH have in common: clear the buffer, load a text, set the counter, and resume. -/
def showText (txt : Text) (v : Word) : List Instr :=
  clearbuf ++ loadtext txt ++ setstc v ++ resume

theorem boot_eq (p : HostParams) : boot p = showText startupText (p.refreshThreshold - 1#16) := rfl

theorem refresh_eq (p : HostParams) (r : Sample) :
    refresh p r = suspend ++ showText (sampleText p r) (sampleStc p r) := rfl

/-- A rewrite leaves its text loaded and its counter value, and no other element changed. -/
theorem execAll_showText {txt : Text} (hlen : txt.length ≤ 32) (v : Word) (s : State) :
    ∃ t, execAll (showText txt v) s = .next t ∧ t.Loaded txt ∧
      t = { s with buf := t.buf, cc := 0#5, dc := 0#3, stc := v, en := true } := by
  obtain ⟨m, hm, heq, hcell⟩ := execAll_clear_load hlen s
  refine ⟨(m.setStc v).writeCtrl 0x0003#16, ?_, ⟨rfl, rfl, rfl, fun k => ?_⟩, ?_⟩
  · rw [showText, List.append_assoc, execAll_append _ hm]
    rfl
  · exact ((m.setStc v).writeCtrl_cell 0x0003#16 k).trans (hcell k)
  · rw [heq]
    rfl

/-- Writing a text keeps the duties on EN while EN = 0. -/
theorem dutiful_loadFrom_append (k : Nat) (txt : Text) (is : List Instr) :
    dutiful false (loadFrom k txt ++ is) = dutiful false is := by
  induction txt generalizing k with
  | nil => rfl
  | cons c rest ih => simpa [loadFrom, dutiful, keepsEnDuties, enAfter] using ih (k + 1)

/-- A host that suspends and then rewrites keeps the duties on EN, whatever the text. -/
theorem dutiful_suspend_showText (en : Bool) (txt : Text) (v : Word) :
    dutiful en (suspend ++ showText txt v) = true := by
  have hload : dutiful false (loadtext txt ++ setstc v ++ resume) = true := by
    rw [List.append_assoc, loadtext, dutiful_loadFrom_append]
    rfl
  cases en <;> exact hload

/-! ### Which text a buffer holds -/

/-- `holdsText` through the cells of the machine. -/
theorem State.holdsText_buf_iff (s : State) : holdsText s.buf = true ↔
    ∃ txt : Text, wellFormedText txt = true ∧ ∀ k, s.cell k = txt.getD k 0x00#8 := by
  rw [holdsText_iff]
  refine exists_congr fun txt => and_congr_right fun hwf => ⟨fun h k => ?_, fun h k hk => ?_⟩
  · by_cases hk : k < 32
    · rw [State.cell, if_pos hk, h k hk]
    · have hlen := wellFormedText_length hwf
      rw [State.cell_of_ge (by omega), List.getD_eq_default _ _ (by omega)]
  · rw [← h k, State.cell, if_pos hk]

/-! ### A host's view along a rewrite (R160, R162) -/

/-- The view after the action CLR of a CTRL write. -/
def HostView.afterClr (v : Word) (h : HostView) : HostView :=
  if ctrlClr v then { h with text := some [] } else h

/-- A CTRL write while EN = 1 breaks a duty exactly where it clears the buffer (R173). -/
theorem HostView.writeCtrl_of_en {p : HostParams} {h : HostView} (v : Word) (hen : h.en = true) :
    h.writeCtrl p v = if ctrlClr v then none
      else some (if ctrlEn v then h else { h with en := false, text := none }) := by
  cases hclr : ctrlClr v with
  | true => simp [HostView.writeCtrl, hen, hclr]
  | false => cases hv : ctrlEn v <;> simp [HostView.writeCtrl, hen, hclr, hv]

/-- A CTRL write while EN = 0 takes its CLR, and resumes where it sets EN, only together with CRST (R162). -/
theorem HostView.writeCtrl_of_not_en {p : HostParams} {h : HostView} (v : Word) (hen : h.en = false) :
    h.writeCtrl p v = if ctrlEn v then if ctrlCrst v then (h.afterClr v).resume p else none
      else some (h.afterClr v) := by
  cases hclr : ctrlClr v <;> simp [HostView.writeCtrl, HostView.afterClr, hclr, hen]

/-- The view follows the buffer while a text is loaded. -/
theorem HostView.run_loadFrom {p : HostParams} {k : Nat} {txt : Text} {h : HostView} {s t : State}
    (hen : h.en = false) (htext : h.text = some s.buf) (hrun : execAll (loadFrom k txt) s = .next t) :
    h.run p (loadFrom k txt) = some { h with text := some t.buf } := by
  induction txt generalizing k h s with
  | nil => cases hrun; rw [← htext]; rfl
  | cons c rest ih =>
    obtain ⟨m, hm, hrest⟩ := execAll_cons_next hrun
    cases hm
    have hnext : h.next p (.wrBuf (BitVec.ofNat 5 k) (c.setWidth 16)) =
        some { h with
          text := some (s.writeCell (BitVec.ofNat 5 k) (lowByte (c.setWidth 16))).buf } := by
      simp [HostView.next, HostView.writeCell, hen, htext]
    rw [loadFrom, HostView.run_cons _ hnext]
    exact ih (h := { h with text := some _ }) hen rfl hrest

/-- Suspending breaks no duty, and leaves the rewrites that the host owes. -/
theorem HostView.next_suspend (p : HostParams) (h : HostView) :
    ∃ g, h.next p (.wrCtrl 0x0000#16) = some g ∧ g.en = false ∧ g.dueStc p = h.dueStc p ∧
      g.rewrites = h.rewrites := by
  cases hen : h.en with
  | false => exact ⟨h, HostView.writeCtrl_of_not_en 0x0000#16 hen, hen, rfl, rfl⟩
  | true =>
    exact ⟨{ h with en := false, text := none }, HostView.writeCtrl_of_en 0x0000#16 hen, rfl, rfl, rfl⟩

/-- Resuming with a text in the buffer and the counter value owed breaks no duty (R162, R172). -/
theorem HostView.next_resume {p : HostParams} {h : HostView} {m : Memory} {v : Word} (hen : h.en = false)
    (htext : h.text = some m) (hholds : holdsText m = true) (hstc : h.stc = some v)
    (hdue : h.dueStc p = some v) :
    h.next p (.wrCtrl 0x0003#16) = some ⟨true, true, none, none, h.rewrites.tail⟩ := by
  calc h.next p (.wrCtrl 0x0003#16) = h.resume p := HostView.writeCtrl_of_not_en 0x0003#16 hen
    _ = some ⟨true, true, none, none, h.rewrites.tail⟩ := by
      simp [HostView.resume, htext, hholds, hstc, hdue]

/-- A rewrite of a well-formed text with the counter value owed keeps every duty of R160, from EN = 0. -/
theorem HostView.run_showText {p : HostParams} {txt : Text} {v : Word} {h : HostView}
    (hen : h.en = false) (htxt : wellFormedText txt = true) (hdue : h.dueStc p = some v) :
    h.run p (showText txt v) = some ⟨true, true, none, none, h.rewrites.tail⟩ := by
  have hclear : h.run p clearbuf = some { h with text := some [] } :=
    HostView.run_cons [] (HostView.writeCtrl_of_not_en 0x0004#16 hen)
  obtain ⟨t, hload, -, hcell⟩ := execAll_clear_load (wellFormedText_length htxt) State.reset
  have hholds : holdsText t.buf = true := t.holdsText_buf_iff.mpr ⟨txt, htxt, hcell⟩
  have htext : h.run p (clearbuf ++ loadtext txt) = some { h with text := some t.buf } := by
    rw [HostView.run_append _ hclear]
    rw [execAll_append _ (execAll_singleton _ _)] at hload
    exact HostView.run_loadFrom hen rfl hload
  rw [showText, List.append_assoc, HostView.run_append _ htext]
  calc ({ h with text := some t.buf } : HostView).run p (setstc v ++ Machine.resume)
      = ({ h with text := some t.buf, stc := some v } : HostView).run p Machine.resume :=
        HostView.run_cons _ rfl
    _ = some ⟨true, true, none, none, h.rewrites.tail⟩ := HostView.run_cons []
        (HostView.next_resume (h := { h with text := some t.buf, stc := some v }) hen rfl hholds rfl hdue)

/-- The same from any EN, where the host suspends first. -/
theorem HostView.run_suspend_showText {p : HostParams} {txt : Text} {v : Word} {h : HostView}
    (htxt : wellFormedText txt = true) (hdue : h.dueStc p = some v) :
    h.run p (suspend ++ showText txt v) = some ⟨true, true, none, none, h.rewrites.tail⟩ := by
  obtain ⟨g, hg, hen, hdue', hrw⟩ := h.next_suspend p
  rw [suspend, List.singleton_append, HostView.run_cons _ hg,
    HostView.run_showText hen htxt (hdue'.trans hdue), hrw]

/-! ### BOOT and REFRESH -/

/-- Settles O54: BOOT is the rewrite of the startup pattern, with the counter one below the threshold. -/
theorem bootPreparesTheFirstRefresh : Obligations.BootPreparesTheFirstRefresh := by
  intro p s hpos
  obtain ⟨t, ht, hload, heq⟩ := execAll_showText (txt := startupText) (by decide)
    (p.refreshThreshold - 1#16) s
  have hstc : t.stc = p.refreshThreshold - 1#16 := by rw [heq]
  have hnext : t.renderTick.stc = p.refreshThreshold := by
    rw [State.renderTick_stc, hstc, BitVec.sub_add_cancel]
  refine ⟨t, t.renderTick, ht, hload.en, hload.cc, hload.dc, hload.cell, ?_,
    exec_tick_of_en hload.en, hnext, ?_, fun h later hrw => ?_⟩
  · rw [hstc, refreshDue, decide_eq_false_iff_not]
    bv_omega
  · rw [hnext, refreshDue, decide_eq_true_iff]
    exact BitVec.le_refl _
  · have hdue : h.dueStc p = some (p.refreshThreshold - 1#16) := by
      simp [HostView.dueStc, hrw, Rewrite.stc]
    have htxt : wellFormedText startupText = true := by decide
    rw [boot_eq]
    refine ⟨fun hen => ?_, ?_⟩
    · rw [HostView.run_showText hen htxt hdue, hrw]; rfl
    · rw [HostView.run_suspend_showText htxt hdue, hrw]; rfl

/-- Settles O55: REFRESH is the rewrite of the sample's text, after `suspend`. -/
theorem refreshShowsTheSample : Obligations.RefreshShowsTheSample := by
  intro p r s hlen
  obtain ⟨t, ht, hload, heq⟩ := execAll_showText hlen (sampleStc p r) (s.writeCtrl 0x0000#16)
  have hstc : t.stc = sampleStc p r := by rw [heq]
  rw [refresh_eq]
  refine ⟨t, by rw [execAll_append _ (execAll_singleton _ s)]; exact ht, hload.en, hload.cc, hload.dc,
    hload.cell, fun x y hr => by rw [hstc, hr]; rfl, fun e hr => by rw [hstc, hr]; rfl,
    by rw [heq]; rfl, by rw [heq]; rfl, by rw [heq]; rfl, dutiful_suspend_showText .., ?_⟩
  intro h later htxt hbooted hrw
  have hdue : h.dueStc p = some (sampleStc p r) := by simp [HostView.dueStc, hrw, hbooted, Rewrite.stc]
  rw [HostView.run_suspend_showText htxt hdue, hrw]
  rfl

/-! ### A true view stays true (R160, R173) -/

/-- The clauses of `HostView.agrees`. -/
theorem HostView.agrees_iff (h : HostView) (s : State) : h.agrees s = true ↔
    s.en = h.en ∧ (h.text = none → holdsText s.buf = true) ∧
      ∀ m, h.text = some m → h.en = false ∧ s.buf = m := by
  cases htext : h.text with
  | none => simp [HostView.agrees, htext]
  | some m => simp [HostView.agrees, htext]

/-- While EN = 1 a true view has no rewrite in progress, and the buffer holds a text. -/
theorem HostView.agrees_iff_of_en {h : HostView} (s : State) (hen : h.en = true) :
    h.agrees s = true ↔ s.en = true ∧ h.text = none ∧ holdsText s.buf = true := by
  cases htext : h.text with
  | none => simp [HostView.agrees, htext, hen]
  | some m => simp [HostView.agrees, htext, hen]

/-- What a CTRL write that breaks no duty does to the view, by EN before and after it. -/
theorem HostView.writeCtrl_cases {p : HostParams} {v : Word} {h g : HostView}
    (hg : h.writeCtrl p v = some g) :
    (h.en = true ∧ ctrlClr v = false ∧ ctrlEn v = true ∧ g = h) ∨
    (h.en = true ∧ ctrlClr v = false ∧ ctrlEn v = false ∧ g = { h with en := false, text := none }) ∨
    (h.en = false ∧ ctrlEn v = true ∧ (h.afterClr v).resume p = some g) ∨
    (h.en = false ∧ ctrlEn v = false ∧ g = h.afterClr v) := by
  cases hen : h.en with
  | true =>
    rw [HostView.writeCtrl_of_en v hen] at hg
    cases hclr : ctrlClr v with
    | true => simp [hclr] at hg
    | false => cases hv : ctrlEn v <;> simp_all
  | false =>
    rw [HostView.writeCtrl_of_not_en v hen] at hg
    cases hv : ctrlEn v <;> simp_all

/-- CLR clears the view's buffer with the machine's, while EN = 0. -/
theorem HostView.afterClr_agrees {v : Word} {h : HostView} {s t : State} (hs : h.agrees s = true)
    (hen : h.en = false) (ht : t.en = false) (hbuf : t.buf = (s.writeCtrl v).buf) :
    (h.afterClr v).agrees t = true := by
  rw [State.writeCtrl_buf] at hbuf
  cases hclr : ctrlClr v with
  | true => simp [HostView.agrees, HostView.afterClr, hclr, hen, ht, hbuf]
  | false => simp_all [HostView.agrees, HostView.afterClr]

/-- A resume that breaks no duty leaves a buffer that holds a text. -/
theorem HostView.resume_agrees {p : HostParams} {h g : HostView} {s t : State} (hs : h.agrees s = true)
    (hg : h.resume p = some g) (hen : t.en = true) (hbuf : t.buf = s.buf) : g.agrees t = true := by
  obtain ⟨-, hnone, hsome⟩ := (h.agrees_iff s).mp hs
  obtain ⟨htext, rfl⟩ | ⟨m, htext, hholds, -, -, rfl⟩ := HostView.resume_cases hg
  · exact (HostView.agrees_iff_of_en t rfl).mpr ⟨hen, htext, hbuf ▸ hnone htext⟩
  · obtain ⟨-, rfl⟩ := hsome m htext
    exact (HostView.agrees_iff_of_en t rfl).mpr ⟨hen, rfl, hbuf ▸ hholds⟩

/-- A CTRL write that breaks no duty keeps a true view true. -/
theorem HostView.writeCtrl_agrees {p : HostParams} {v : Word} {h g : HostView} {s : State}
    (hs : h.agrees s = true) (hg : h.writeCtrl p v = some g) : g.agrees (s.writeCtrl v) = true := by
  obtain ⟨hen, hclr, hv, rfl⟩ | ⟨hen, hclr, hv, rfl⟩ | ⟨hen, hv, hresume⟩ | ⟨hen, hv, rfl⟩ :=
    HostView.writeCtrl_cases hg
  · obtain ⟨-, htext, hholds⟩ := (HostView.agrees_iff_of_en s hen).mp hs
    exact (HostView.agrees_iff_of_en _ hen).mpr (by simp [hv, htext, hclr, hholds])
  · obtain ⟨-, -, hholds⟩ := (HostView.agrees_iff_of_en s hen).mp hs
    simp [HostView.agrees, hv, hclr, hholds]
  · have hclear := HostView.afterClr_agrees (v := v) (t := (s.writeCtrl v).setEn false) hs hen rfl rfl
    exact HostView.resume_agrees hclear hresume (by simp [hv]) rfl
  · exact HostView.afterClr_agrees hs hen (by simp [hv]) rfl

/-- An event that breaks no duty keeps a true view true. -/
theorem HostView.next_agrees {p : HostParams} {h g : HostView} {i : Instr} {s t : State}
    (hs : h.agrees s = true) (hg : h.next p i = some g) (ht : exec i s = .next t) :
    g.agrees t = true := by
  cases i with
  | wrCtrl v => cases ht; exact HostView.writeCtrl_agrees hs hg
  | wrBuf n v =>
    cases ht
    obtain ⟨hen, m, htext, rfl⟩ := HostView.writeCell_some hg
    simp_all [HostView.agrees]
  | reset => cases ht; cases hg; rfl
  | tick =>
    cases hg
    obtain ⟨-, rfl⟩ | ⟨-, rfl⟩ := exec_tick_cases ht
    · exact hs
    · exact hs
  | rsvdEvent k d => cases ht
  | rdRsvd a | wrRsvd a v | wrStatus v | wrDisp v | wrBufterm v => cases hg
  | rdCtrl | rdStatus | rdStc | rdDisp | rdGprobe | rdBuf n | rdBufterm | wrStc v | wrGprobe v =>
    cases hg; cases ht; exact hs

/-- A true view stays true along events that keep every duty. -/
theorem HostView.run_agrees {p : HostParams} {is : List Instr} {h g : HostView} {s t : State}
    (hs : h.agrees s = true) (hg : h.run p is = some g) (ht : execAll is s = .next t) :
    g.agrees t = true := by
  induction is generalizing h s with
  | nil => cases hg; cases ht; exact hs
  | cons i is ih =>
    obtain ⟨h', hnext, hrun⟩ := HostView.run_cons_some hg
    obtain ⟨m, hm, hrest⟩ := execAll_cons_next ht
    exact ih (HostView.next_agrees hs hnext hm) hrun hrest

/-- Events that keep every duty of R160 keep those on EN. -/
theorem HostView.dutiful_of_run {p : HostParams} {is : List Instr} {h g : HostView}
    (hg : h.run p is = some g) : dutiful h.en is = true := by
  induction is generalizing h with
  | nil => rfl
  | cons i is ih =>
    obtain ⟨m, hnext, hrun⟩ := HostView.run_cons_some hg
    obtain ⟨hen, hkeeps⟩ := HostView.next_en hnext
    rw [dutiful, hkeeps, ← hen, ih hrun]
    rfl

/-- An event other than RESET that keeps the duties on EN changes no cell while EN = 1 (R173). -/
theorem exec_cell_of_keepsEnDuties {i : Instr} {s t : State} (hkeeps : keepsEnDuties true i = true)
    (hreset : i ≠ .reset) (h : exec i s = .next t) (k : Nat) : t.cell k = s.cell k := by
  obtain ⟨-, v, rfl⟩ | ⟨-, rfl⟩ | ⟨v, rfl, rfl⟩ | ⟨v, -, rfl⟩ | ⟨v, -, rfl⟩ | ⟨n, v, rfl, -⟩ |
    ⟨-, -, rfl⟩ | ⟨-, -, rfl⟩ | ⟨rfl, -⟩ := exec_cases h
  · rfl
  · rfl
  · have hclr : ctrlClr v = false := by simpa [keepsEnDuties] using hkeeps
    simp [State.writeCtrl_cell, hclr]
  · rfl
  · rfl
  · cases hkeeps
  · rfl
  · rfl
  · exact absurd rfl hreset

/-- Settles O56: the invariant of the view, and the one event that a dutiful host issues while EN = 1. -/
theorem dutifulHostRewritesOnlyWhileSuspended : Obligations.DutifulHostRewritesOnlyWhileSuspended := by
  refine ⟨fun p is h g => HostView.dutiful_of_run, fun p is h g s t hs hg ht => ?_, fun _ => rfl,
    fun before after i s m n hduty hbefore hen hreset hi => ?_⟩
  · have hagrees := HostView.run_agrees hs hg ht
    refine ⟨hagrees, fun hen => t.holdsText_buf_iff.mp ?_⟩
    obtain ⟨heq, -, -⟩ := (g.agrees_iff t).mp hagrees
    obtain ⟨-, -, hholds⟩ := (HostView.agrees_iff_of_en t (heq.symm.trans hen)).mp hagrees
    exact hholds
  · rw [dutiful_append hbefore, dutiful, hen] at hduty
    simp only [Bool.and_eq_true] at hduty
    obtain ⟨-, hkeeps, -⟩ := hduty
    exact exec_cell_of_keepsEnDuties hkeeps hreset hi

end Sys2Proof.Machine

/-! The family 70_reset_and_hazards.md: RESET leaves the display dark (O20), the pin sequencer at the edge
of each cycle (O57) and along every run (O18, O60), and what short and long gaps between ticks show (O58,
O59). -/

namespace Sys2Proof.Machine

/-! ### What the pin sequencer reads and what reaches the display -/

/-- The elements the edge reads and moves: the output registers, the pin sequencer, and W. -/
structure Display where
  segOut : Byte
  digOut : Byte
  ph     : Phase
  segPin : Byte
  digPin : Byte
  writes : List DisplayWrite

/-- The display elements of a state. -/
def State.display (s : State) : Display := ⟨s.segOut, s.digOut, s.ph, s.segPin, s.digPin, s.writes⟩

theorem State.display_eq_iff {s t : State} : t.display = s.display ↔
    t.segOut = s.segOut ∧ t.digOut = s.digOut ∧ t.ph = s.ph ∧ t.segPin = s.segPin ∧
      t.digPin = s.digPin ∧ t.writes = s.writes := by
  simp only [State.display, Display.mk.injEq]

/-- What an event does to the display, where no TICK has executed yet: RESET darkens it, an executed TICK
renders, and every other event, a dropped TICK included, leaves it. -/
theorem exec_display {i : Instr} {s t : State} (hw : s.writes = []) (h : exec i s = .next t) :
    (i = .reset ∧ t.display = State.reset.display) ∨
    (i = .tick ∧ s.en = true ∧ t.display = s.renderTick.display) ∨
    ((i = .tick → s.en = false) ∧ t.display = s.display) := by
  by_cases hreset : i = .reset
  · subst hreset; cases h; exact .inl ⟨rfl, rfl⟩
  · by_cases htick : i = .tick
    · subst htick
      obtain ⟨hen, rfl⟩ | ⟨hen, rfl⟩ := exec_tick_cases h
      · exact .inr (.inl ⟨rfl, hen, rfl⟩)
      · exact .inr (.inr ⟨fun _ => hen, by simp [State.display_eq_iff, hw]⟩)
    · exact .inr (.inr ⟨fun ht => absurd ht htick,
        State.display_eq_iff.mpr (exec_display_frame h htick hreset)⟩)

/-- Every event but a CTRL write of EN = 1 keeps EN = 0 (R26). -/
theorem exec_keeps_not_en {i : Instr} {s t : State} (hctrl : ∀ v, i = .wrCtrl v → ctrlEn v = false)
    (hs : s.en = false) (h : exec i s = .next t) : t.en = false :=
  (exec_keeps_suspendedSince (m := s) (is := [i]) (List.mem_singleton_self i) hctrl
    ⟨hs, fun _ => ⟨rfl, rfl⟩, fun _ _ => rfl, id⟩ h).en

/-! ### RESET -/

/-- EN = 0 and the display as RESET leaves it. -/
def State.Dark (s : State) : Prop := s.en = false ∧ s.display = State.reset.display

/-- Every event but a CTRL write of EN = 1 keeps the display dark: no TICK executes. -/
theorem exec_keeps_dark {i : Instr} {s t : State} (hctrl : ∀ v, i = .wrCtrl v → ctrlEn v = false)
    (hs : s.Dark) (h : exec i s = .next t) : t.Dark := by
  obtain ⟨hen, hdisplay⟩ := hs
  refine ⟨exec_keeps_not_en hctrl hen h, ?_⟩
  obtain ⟨-, hd⟩ | ⟨-, hon, -⟩ | ⟨-, hd⟩ := exec_display (congrArg Display.writes hdisplay) h
  · exact hd
  · simp [hen] at hon
  · exact hd.trans hdisplay

/-- Settles O20: RESET leaves the display dark, and each of the events keeps it so. -/
theorem darkUntilResumed : Obligations.DarkUntilResumed := by
  intro is s t hctrl h
  rw [execAll_cons (exec_reset s)] at h
  obtain ⟨hen, hdisplay⟩ : t.Dark := execAll_keeps (P := State.Dark) (s := s.resetAll)
    (fun i hi _ _ => exec_keeps_dark fun v hv => hctrl v (hv ▸ hi)) ⟨rfl, rfl⟩ h
  obtain ⟨hseg, hdig, hph, hsegPin, hdigPin, -⟩ := State.display_eq_iff.mp hdisplay
  exact ⟨hen, hdig, hseg, hsegPin, hdigPin, hph⟩

/-! ### The edge (R214) -/

/-- The edge reads the display elements alone, and moves no other. -/
theorem State.clockEdge_display_congr {s t : State} (h : t.display = s.display) :
    t.clockEdge.display = s.clockEdge.display := by
  obtain ⟨hseg, hdig, hph, hsegPin, hdigPin, hw⟩ := State.display_eq_iff.mp h
  by_cases hne : s.writes = []
  · cases hp : s.ph <;>
      simp [State.display_eq_iff, State.clockEdge, hseg, hdig, hph, hsegPin, hdigPin, hw, hne, hp]
  · simp [State.display_eq_iff, State.clockEdge, hseg, hdig, hdigPin, hw, hne]

/-- An executed tick begins its sequence: blank segments, the digit held. -/
theorem State.clockEdge_renderTick (s : State) :
    s.renderTick.clockEdge = s.renderTick.setPins .p1 0x00#8 s.digPin := by
  simp [State.clockEdge, State.tickWrites]

/-- The state after a cycle whose one event is an executed tick, with the cycles `rest` to come. -/
def State.tickCycle (rest : List Cycle) (s : State) : State :=
  (s.beginCycle rest).renderTick.setPins .p1 0x00#8 s.digPin

@[simp] theorem State.tickCycle_cc (rest : List Cycle) (s : State) : (s.tickCycle rest).cc = s.nextCc := by
  simp [State.tickCycle]
@[simp] theorem State.tickCycle_dc (rest : List Cycle) (s : State) : (s.tickCycle rest).dc = s.nextDc := by
  simp [State.tickCycle]
@[simp] theorem State.tickCycle_stc (rest : List Cycle) (s : State) : (s.tickCycle rest).stc = s.stc + 1#16 :=
  rfl
@[simp] theorem State.tickCycle_en (rest : List Cycle) (s : State) : (s.tickCycle rest).en = s.en := by
  simp [State.tickCycle]
@[simp] theorem State.tickCycle_ph (rest : List Cycle) (s : State) : (s.tickCycle rest).ph = .p1 := rfl
@[simp] theorem State.tickCycle_segPin (rest : List Cycle) (s : State) : (s.tickCycle rest).segPin = 0x00#8 :=
  rfl
@[simp] theorem State.tickCycle_digPin (rest : List Cycle) (s : State) :
    (s.tickCycle rest).digPin = s.digPin := by
  simp [State.tickCycle]
@[simp] theorem State.tickCycle_trace (rest : List Cycle) (s : State) : (s.tickCycle rest).trace = rest :=
  rfl
@[simp] theorem State.tickCycle_cell (rest : List Cycle) (s : State) (k : Nat) :
    (s.tickCycle rest).cell k = s.cell k := by simp [State.tickCycle]

/-- P1 selects the digit. -/
theorem State.clockEdge_of_p1 {s : State} (hw : s.writes = []) (hph : s.ph = .p1) :
    s.clockEdge = s.setPins .p2 s.segPin s.digOut := by
  simp [State.clockEdge, hw, hph]

/-- The state after an idle cycle in phase P1, with the cycles `rest` to come. -/
def State.p1Cycle (rest : List Cycle) (s : State) : State :=
  (s.beginCycle rest).setPins .p2 s.segPin s.digOut

@[simp] theorem State.p1Cycle_cc (rest : List Cycle) (s : State) : (s.p1Cycle rest).cc = s.cc := rfl
@[simp] theorem State.p1Cycle_dc (rest : List Cycle) (s : State) : (s.p1Cycle rest).dc = s.dc := rfl
@[simp] theorem State.p1Cycle_stc (rest : List Cycle) (s : State) : (s.p1Cycle rest).stc = s.stc := rfl
@[simp] theorem State.p1Cycle_en (rest : List Cycle) (s : State) : (s.p1Cycle rest).en = s.en := rfl
@[simp] theorem State.p1Cycle_segPin (rest : List Cycle) (s : State) : (s.p1Cycle rest).segPin = s.segPin :=
  rfl
@[simp] theorem State.p1Cycle_trace (rest : List Cycle) (s : State) : (s.p1Cycle rest).trace = rest := rfl
@[simp] theorem State.p1Cycle_cell (rest : List Cycle) (s : State) (k : Nat) :
    (s.p1Cycle rest).cell k = s.cell k := by simp [State.p1Cycle]

/-- P2 shows the glyph. -/
theorem State.clockEdge_of_p2 {s : State} (hw : s.writes = []) (hph : s.ph = .p2) :
    s.clockEdge = s.setPins .idle s.segOut s.digPin := by
  simp [State.clockEdge, hw, hph]

/-- IDLE holds. -/
theorem State.clockEdge_of_idle {s : State} (hw : s.writes = []) (hph : s.ph = .idle) :
    s.clockEdge = s := by
  simp [State.clockEdge, hw, hph]

/-! What the edge of a cycle without an executed TICK leaves, phase by phase. -/

theorem State.pins_of_p1 {s t : State} {rest : List Cycle} (hph : s.ph = .p1)
    (hd : t.display = (s.beginCycle rest).clockEdge.display) : t.ph = .p2 ∧ t.segPin = s.segPin ∧
      t.digPin = s.digOut ∧ t.segOut = s.segOut ∧ t.digOut = s.digOut := by
  rw [State.clockEdge_of_p1 (s.beginCycle_writes rest) hph] at hd
  obtain ⟨hseg, hdig, hph', hsegPin, hdigPin, -⟩ := State.display_eq_iff.mp hd
  exact ⟨hph', hsegPin, hdigPin, hseg, hdig⟩

theorem State.pins_of_p2 {s t : State} {rest : List Cycle} (hph : s.ph = .p2)
    (hd : t.display = (s.beginCycle rest).clockEdge.display) : t.ph = .idle ∧ t.segPin = s.segOut ∧
      t.digPin = s.digPin ∧ t.segOut = s.segOut ∧ t.digOut = s.digOut := by
  rw [State.clockEdge_of_p2 (s.beginCycle_writes rest) hph] at hd
  obtain ⟨hseg, hdig, hph', hsegPin, hdigPin, -⟩ := State.display_eq_iff.mp hd
  exact ⟨hph', hsegPin, hdigPin, hseg, hdig⟩

theorem State.pins_of_idle {s t : State} {rest : List Cycle} (hph : s.ph = .idle)
    (hd : t.display = (s.beginCycle rest).clockEdge.display) : t.ph = .idle ∧ t.segPin = s.segPin ∧
      t.digPin = s.digPin ∧ t.segOut = s.segOut ∧ t.digOut = s.digOut := by
  rw [State.clockEdge_of_idle (s.beginCycle_writes rest) hph] at hd
  obtain ⟨hseg, hdig, hph', hsegPin, hdigPin, -⟩ := State.display_eq_iff.mp hd
  exact ⟨hph'.trans hph, hsegPin, hdigPin, hseg, hdig⟩

/-! ### A step and the display -/

/-- After a cycle's first event no RESET comes: a RESET that takes effect does so alone (R57). -/
theorem Cycle.reset_not_mem_tail_events (c : Cycle) : Instr.reset ∉ c.events.tail := by
  obtain ⟨i, hi⟩ | ⟨hall, hreset, -⟩ := effective_cases (c.words.map decode)
  · simp [Cycle.events, hi]
  · rw [Cycle.events, hall]
    exact fun hmem => hreset (List.mem_of_mem_tail hmem)

/-- What a cycle's events do to the display: a RESET, or one executed TICK, or nothing. It is the first
event that decides. -/
theorem execAll_events_display {c : Cycle} {s m : State} (hw : s.writes = [])
    (h : execAll c.events s = .next m) :
    (.reset ∈ c.events ∧ m.display = State.reset.display) ∨
    (.tick ∈ c.events ∧ s.en = true ∧ m.display = s.renderTick.display) ∨
    ((.tick ∈ c.events → s.en = false) ∧ m.display = s.display) := by
  have htick := c.tick_not_mem_tail_events
  have hreset := c.reset_not_mem_tail_events
  cases hc : c.events with
  | nil => rw [hc] at h; cases h; simp
  | cons i is =>
    rw [hc] at h htick hreset
    obtain ⟨n, hn, hrest⟩ := execAll_cons_next h
    have htail : m.display = n.display := execAll_keeps (P := fun u => u.display = n.display)
      (fun j hj _ _ hu hx => (State.display_eq_iff.mpr (exec_display_frame hx
        (fun heq => htick (heq ▸ hj)) fun heq => hreset (heq ▸ hj))).trans hu) rfl hrest
    rw [htail]
    obtain ⟨rfl, hd⟩ | ⟨rfl, hen, hd⟩ | ⟨hdrop, hd⟩ := exec_display hw hn
    · exact .inl ⟨List.mem_cons_self, hd⟩
    · exact .inr (.inl ⟨List.mem_cons_self, hen, hd⟩)
    · exact .inr (.inr ⟨fun hmem => hdrop ((List.mem_cons.mp hmem).resolve_right htick).symm, hd⟩)

/-- The events of the next step: those of the next cycle presented, or of an idle one (R176). -/
def State.nextEvents (s : State) : List Instr := (s.trace.headD Cycle.idle).events

/-- A step that answers runs the next events from the beginning of the cycle, and then the edge. -/
theorem step_nextEvents {s t : State} (h : step s = .next t) : ∃ m,
    execAll s.nextEvents (s.beginCycle s.trace.tail) = .next m ∧ t = m.clockEdge := by
  unfold State.nextEvents
  cases htr : s.trace with
  | nil => rw [step_nil htr] at h; cases h; exact ⟨_, rfl, rfl⟩
  | cons c rest => exact step_cons_next htr h

/-- What a step does to the display: a RESET darkens it, an executed TICK renders and begins its sequence
at the pins, and any other step moves the pins alone, as the edge of an idle cycle does. -/
theorem step_display {s t : State} (h : step s = .next t) :
    (.reset ∈ s.nextEvents ∧ t.display = State.reset.display) ∨
    (.tick ∈ s.nextEvents ∧ s.en = true ∧ t.display = (s.tickCycle s.trace.tail).display) ∨
    ((.tick ∈ s.nextEvents → s.en = false) ∧
      t.display = (s.beginCycle s.trace.tail).clockEdge.display) := by
  obtain ⟨m, hm, rfl⟩ := step_nextEvents h
  obtain ⟨hmem, hd⟩ | ⟨hmem, hen, hd⟩ | ⟨hdrop, hd⟩ :=
    execAll_events_display (s.beginCycle_writes _) hm
  · exact .inl ⟨hmem, State.clockEdge_display_congr hd⟩
  · refine .inr (.inl ⟨hmem, hen, ?_⟩)
    rw [State.clockEdge_display_congr hd, State.clockEdge_renderTick]
    rfl
  · exact .inr (.inr ⟨hdrop, State.clockEdge_display_congr hd⟩)

/-- A step takes one cycle off the trace. -/
theorem step_trace {s t : State} (h : step s = .next t) : t.trace = s.trace.tail := by
  obtain ⟨m, hm, rfl⟩ := step_nextEvents h
  rw [State.clockEdge_trace]
  exact execAll_keeps (P := fun u => u.trace = s.trace.tail)
    (fun _ _ _ _ hu hx => (exec_trace hx).trans hu) rfl hm

/-- What each step keeps, a run keeps. -/
theorem runSteps_keeps {P : State → Prop} (hP : ∀ s t, P s → step s = .next t → P t) {n : Nat}
    {s t : State} (hs : P s) (h : runSteps n s = .next t) : P t := by
  induction n generalizing s with
  | zero => cases h; exact hs
  | succ n ih =>
    cases hx : step s with
    | next m => rw [runSteps_succ hx] at h; exact ih (hP s m hs hx) h
    | fault r => cases r
    | refused r => rw [runSteps_refused hx] at h; cases h

/-! ### The ghosting invariant (R214) -/

/-- The pins' coherence speaks of the display elements alone. -/
theorem State.pinsCoherent_congr {s t : State} (h : t.display = s.display) :
    t.pinsCoherent = s.pinsCoherent := by
  obtain ⟨hseg, hdig, hph, hsegPin, hdigPin, -⟩ := State.display_eq_iff.mp h
  simp only [State.pinsCoherent, hseg, hdig, hph, hsegPin, hdigPin]

/-- The edge moves a sequence in progress on, and leaves the pins coherent in each phase. -/
theorem State.clockEdge_pinsCoherent {s : State} (hw : s.writes = []) (hs : s.pinsCoherent = true) :
    s.clockEdge.pinsCoherent = true := by
  cases hph : s.ph with
  | idle => rw [State.clockEdge_of_idle hw hph]; exact hs
  | p1 =>
    rw [State.clockEdge_of_p1 hw hph]
    simpa [State.pinsCoherent, hph] using hs
  | p2 =>
    rw [State.clockEdge_of_p2 hw hph]
    simp only [State.pinsCoherent, hph, Bool.and_eq_true] at hs
    simpa [State.pinsCoherent] using hs.2

/-- Every step keeps the pins coherent. -/
theorem step_keeps_pinsCoherent {s t : State} (hs : s.pinsCoherent = true) (h : step s = .next t) :
    t.pinsCoherent = true := by
  obtain ⟨-, hd⟩ | ⟨-, -, hd⟩ | ⟨-, hd⟩ := step_display h
  · rw [State.pinsCoherent_congr hd]; rfl
  · rw [State.pinsCoherent_congr hd]; rfl
  · rw [State.pinsCoherent_congr hd]
    exact State.clockEdge_pinsCoherent (s.beginCycle_writes _) hs

/-- Coherent pins show no glyph on another tick's digit. -/
theorem State.pins_eq_outputs_of_lit {s : State} (hs : s.pinsCoherent = true)
    (hlit : s.segPin ≠ 0x00#8) : s.segPin = s.segOut ∧ s.digPin = s.digOut := by
  cases hph : s.ph with
  | idle => simpa [State.pinsCoherent, hph] using hs
  | p1 => simp [State.pinsCoherent, hph, hlit] at hs
  | p2 => simp [State.pinsCoherent, hph, hlit] at hs

/-- Settles O18: each step of the run keeps the pins coherent. -/
theorem noGhostingAlongAnyRun : Obligations.NoGhostingAlongAnyRun := by
  intro n s t hs h
  have ht : t.pinsCoherent = true :=
    runSteps_keeps (P := fun u => u.pinsCoherent = true) (fun _ _ => step_keeps_pinsCoherent) hs h
  exact State.pins_eq_outputs_of_lit ht

/-! ### The cycles that the ports present -/

@[simp] theorem Cycle.reset_not_mem_events_ofPorts (k : Bool) (b : Option BusAccess) :
    Instr.reset ∉ (Cycle.ofPorts false k b).events := by
  cases k <;> simp [Cycle.events_ofPorts, (decode_busAccess _).2]

@[simp] theorem Cycle.tick_mem_events_ofPorts (k : Bool) (b : Option BusAccess) :
    Instr.tick ∈ (Cycle.ofPorts false k b).events ↔ k = true := by
  cases k <;> simp [Cycle.events_ofPorts, decode_busAccess_ne_tick]

/-- The step on a cycle without rst: a tick executes where EN = 1, whatever the bus access. -/
theorem step_ofPorts_display {s t : State} {k : Bool} {b : Option BusAccess} {rest : List Cycle}
    (htr : s.trace = Cycle.ofPorts false k b :: rest) (h : step s = .next t) :
    t.display =
      if k && s.en then (s.tickCycle rest).display else (s.beginCycle rest).clockEdge.display := by
  have hd := step_display h
  simp only [State.nextEvents, htr, List.headD_cons, List.tail_cons, Cycle.tick_mem_events_ofPorts,
    Cycle.reset_not_mem_events_ofPorts, false_and, false_or] at hd
  obtain ⟨rfl, hen, hd⟩ | ⟨hdrop, hd⟩ := hd
  · simpa [hen] using hd
  · have hoff : (k && s.en) = false := by simpa using hdrop
    simpa [hoff] using hd

/-- The step on a cycle that the ports present completes. -/
theorem step_ofPorts_completes {s : State} {r k : Bool} {b : Option BusAccess} {rest : List Cycle}
    (htr : s.trace = Cycle.ofPorts r k b :: rest) : ∃ t, step s = .next t ∧ t.trace = rest := by
  have hreal : (Cycle.ofPorts r k b).real = true := by cases r <;> cases k <;> rfl
  have hstep := (everyRealCycleCompletes s).1
  rw [htr] at hstep
  exact hstep (by simpa using hreal)

/-- The step on an executed tick: blank segments, the digit held, and the tick's outputs (R214). -/
theorem step_tick_pins {s t : State} {b : Option BusAccess} {rest : List Cycle} (hen : s.en = true)
    (htr : s.trace = Cycle.ofPorts false true b :: rest) (h : step s = .next t) :
    t.ph = .p1 ∧ t.segPin = 0x00#8 ∧ t.digPin = s.digPin ∧
      t.segOut = s.tickGlyph ∧ t.digOut = s.tickDigit := by
  have hd := step_ofPorts_display htr h
  rw [hen, Bool.and_self, if_pos rfl] at hd
  obtain ⟨hseg, hdig, hph, hsegPin, hdigPin, -⟩ := State.display_eq_iff.mp hd
  exact ⟨hph, hsegPin, hdigPin.trans (s.tickCycle_digPin rest), hseg, hdig⟩

/-- The identity wiring keeps the bit order (R50). -/
@[simp] theorem routeBits_id (x : Byte) : routeBits id x = x := by
  revert x; decide

/-- Settles O57: a RESET cycle, an executed tick, and the three phases where neither comes. -/
theorem pinSequencerFollowsTheEdge : Obligations.PinSequencerFollowsTheEdge := by
  intro s t r k b rest htr h
  refine ⟨?_, ?_, ?_, fun hs => State.pins_eq_outputs_of_lit (step_keeps_pinsCoherent hs h),
    fun al dl => ⟨routeBits_id _, routeBits_id _⟩⟩
  · rintro rfl
    rw [step_rst htr] at h
    cases h
    exact ⟨rfl, rfl, rfl⟩
  · rintro rfl rfl hen
    obtain ⟨hph, hsegPin, hdigPin, -⟩ := step_tick_pins hen htr h
    exact ⟨hph, hsegPin, hdigPin⟩
  · rintro rfl hoff
    have hd := step_ofPorts_display htr h
    rw [if_neg (by rwa [Bool.and_eq_true, not_and_or, Bool.not_eq_true, Bool.not_eq_true])] at hd
    refine ⟨fun hph => ?_, fun hph => ?_, fun hph => ?_⟩
    · obtain ⟨hph', hsegPin, hdigPin, -, hdig⟩ := State.pins_of_p1 hph hd
      exact ⟨hph', hdigPin.trans hdig.symm, hsegPin⟩
    · obtain ⟨hph', hsegPin, hdigPin, hseg, -⟩ := State.pins_of_p2 hph hd
      exact ⟨hph', hsegPin.trans hseg.symm, hdigPin⟩
    · obtain ⟨hph', hsegPin, hdigPin, -⟩ := State.pins_of_idle hph hd
      exact ⟨hph', hsegPin, hdigPin⟩

/-! ### Gaps between ticks (R215) -/

/-- Settles O58: the tick begins the sequence, and the edges of the two cycles after it take the digit and
the glyph to the pins. -/
theorem glyphReachesThePins : Obligations.GlyphReachesThePins := by
  intro s b0 b1 b2 rest hen htr
  obtain ⟨x, hx, hxtr⟩ := step_ofPorts_completes htr
  obtain ⟨y, hy, hytr⟩ := step_ofPorts_completes hxtr
  obtain ⟨z, hz, -⟩ := step_ofPorts_completes hytr
  obtain ⟨xph, xsegPin, xdigPin, xseg, xdig⟩ := step_tick_pins hen htr hx
  obtain ⟨yph, ysegPin, ydigPin, yseg, ydig⟩ := State.pins_of_p1 xph (step_ofPorts_display hxtr hy)
  obtain ⟨zph, zsegPin, zdigPin, -⟩ := State.pins_of_p2 yph (step_ofPorts_display hytr hz)
  refine ⟨x, y, z, runSteps_succ hx, by rw [runSteps_succ hx, runSteps_succ hy]; rfl,
    by rw [runSteps_succ hx, runSteps_succ hy, runSteps_succ hz]; rfl, ?_, ?_, ?_⟩
  · rw [xph, xsegPin, xdigPin]
  · rw [yph, ysegPin, xsegPin, ydigPin, xdig]
  · rw [zph, zsegPin, yseg, xseg, zdigPin, ydigPin, xdig]

/-- The step on an executed tick alone. -/
theorem step_tick {s : State} {rest : List Cycle} (hen : s.en = true)
    (htr : s.trace = Cycle.ofInstr .tick :: rest) :
    step s = .next (s.tickCycle rest) := by
  rw [step_ofWord htr, decode_encode rfl, exec_tick_of_en (s := s.beginCycle rest) hen, endCycle_next,
    State.clockEdge_renderTick]
  rfl

/-- The step on an idle cycle in phase P1. -/
theorem step_idle_of_p1 {s : State} {rest : List Cycle} (hph : s.ph = .p1)
    (htr : s.trace = Cycle.idle :: rest) :
    step s = .next (s.p1Cycle rest) := by
  rw [step_cons htr, Cycle.events_idle, execAll_nil, endCycle_next,
    State.clockEdge_of_p1 (s := s.beginCycle rest) rfl hph]
  rfl

/-- A second tick goes on from a state that holds what the first one left (R120). -/
theorem State.tickCycle_eq_ticks {s y : State} (rest : List Cycle) (hon : s.en = true)
    (hen : y.en = s.en) (hcc : y.cc = s.nextCc) (hdc : y.dc = s.nextDc) (hstc : y.stc = s.stc + 1#16)
    (hcell : ∀ k, y.cell k = s.cell k) :
    (y.tickCycle rest).stc = s.stc + 2#16 ∧ (y.tickCycle rest).cc = (s.ticks 2).cc ∧
      (y.tickCycle rest).dc = (s.ticks 2).dc ∧ (y.tickCycle rest).segOut = (s.ticks 2).segOut ∧
      (y.tickCycle rest).digOut = (s.ticks 2).digOut := by
  have hchar (k l : Nat) (hkl : k = l) : (y.beginCycle rest).cell k = s.renderTick.cell l := by
    simp [hkl, hcell]
  obtain ⟨hcc', hdc', hstc', -, hout⟩ := tickReadsOnlyWhatTheRulesName (y.beginCycle rest) s.renderTick
    _ _ (by simpa using hen) (by simpa using hcc) (by simpa using hdc) (by simpa using hstc)
    (hchar _ _ (by simp [hcc])) (hchar _ _ (by simp [hcc])) (exec_tick_of_en (by simpa [hen] using hon))
    (exec_tick_of_en (by simpa using hon))
  obtain ⟨hseg, hdig⟩ := hout (hen.trans hon)
  exact ⟨hstc'.trans (BitVec.add_assoc s.stc 1#16 1#16), hcc', hdc', hseg, hdig⟩

/-- Settles O59: the second tick blanks the pins again before the edge that ends P2 has shown the first
one's glyph. -/
theorem shortTickGapLosesTheGlyph : Obligations.ShortTickGapLosesTheGlyph := by
  refine fun s rest hen => ⟨fun htr => ?_, fun htr => ?_⟩
  · have hx := step_tick hen htr
    have hy := step_tick (s := s.tickCycle (.ofInstr .tick :: rest)) (by simpa using hen)
      (State.tickCycle_trace ..)
    refine ⟨_, _, runSteps_succ hx, (runSteps_succ hx).trans (runSteps_succ hy), by simp, by simp,
      by simp, by simp, ?_⟩
    exact State.tickCycle_eq_ticks rest hen (by simp) (by simp) (by simp) (by simp) (by simp)
  · have hx := step_tick hen htr
    have hy := step_idle_of_p1 (s := s.tickCycle (.idle :: .ofInstr .tick :: rest)) (by simp)
      (State.tickCycle_trace ..)
    have hz := step_tick (s := (s.tickCycle (.idle :: .ofInstr .tick :: rest)).p1Cycle
      (.ofInstr .tick :: rest)) (by simpa using hen) (State.p1Cycle_trace ..)
    refine ⟨_, _, _, runSteps_succ hx, (runSteps_succ hx).trans (runSteps_succ hy),
      (runSteps_succ hx).trans ((runSteps_succ hy).trans (runSteps_succ hz)), by simp, by simp,
      by simp, by simp, ?_⟩
    exact State.tickCycle_eq_ticks rest hen (by simp) (by simp) (by simp) (by simp) (by simp)

/-! ### A suspended display at rest (R216, R195) -/

/-- The cycle has no RESET and no CTRL write of EN = 1. -/
def Cycle.KeepsSuspension (c : Cycle) : Prop :=
  c.rst = none ∧ ∀ x, c.bus = some x → ∀ v, decode x.word = .wrCtrl v → v.getLsbD 0 = false

/-- The events that take effect are among those presented. -/
theorem mem_of_mem_effective {is : List Instr} {i : Instr} (h : i ∈ effective is) : i ∈ is := by
  unfold effective at h
  split at h
  · next j hj => exact List.mem_singleton.mp h ▸ List.mem_of_find?_eq_some hj
  · split_ifs at h with hr
    · exact List.mem_singleton.mp h ▸ hr
    · exact h

/-- An event of a cycle without rst is a bus event, or TICK or the reserved event. -/
theorem Cycle.mem_events_of_no_rst {c : Cycle} {i : Instr} (hrst : c.rst = none) (hi : i ∈ c.events) :
    (∃ p, i = decodeSideband 0#1 p) ∨ ∃ x, c.bus = some x ∧ i = decode x.word := by
  have hmem := mem_of_mem_effective hi
  have hkind (p : Payload) : decode (sidebandWord 0b10#2 p) = decodeSideband 0#1 p :=
    decode_sidebandWord 0#1 p
  simp only [Cycle.words, hrst, Option.map_none, Option.toList_none, List.nil_append, List.map_append,
    List.mem_append, List.mem_map, Option.mem_toList, Option.map_eq_some_iff] at hmem
  obtain ⟨_, ⟨p, -, rfl⟩, rfl⟩ | ⟨_, ⟨x, hx, rfl⟩, rfl⟩ := hmem
  · exact .inl ⟨p, hkind p⟩
  · exact .inr ⟨x, hx, rfl⟩

/-- A sideband word of KIND 10 spells neither RESET nor a CTRL write. -/
theorem decodeSideband_tick (p : Payload) :
    decodeSideband 0#1 p = .tick ∨ decodeSideband 0#1 p = .rsvdEvent 0#1 p := by
  rw [decodeSideband, if_pos rfl]
  exact ite_eq_or_eq ..

/-- No event of such a cycle is a RESET or a CTRL write of EN = 1. -/
theorem Cycle.KeepsSuspension.events {c : Cycle} (hc : c.KeepsSuspension) {i : Instr}
    (hi : i ∈ c.events) : i ≠ .reset ∧ ∀ v, i = .wrCtrl v → ctrlEn v = false := by
  obtain ⟨hrst, hbus⟩ := hc
  obtain ⟨p, rfl⟩ | ⟨x, hx, rfl⟩ := Cycle.mem_events_of_no_rst hrst hi
  · obtain hp | hp := decodeSideband_tick p <;> simp [hp]
  · exact ⟨(decode_busAccess x).2, hbus x hx⟩

/-- What holds of a state `t` after steps from the state `s` at rest: EN = 0, the display elements as they
were, and the cycles to come keep the suspension. -/
structure State.FrozenSince (s t : State) : Prop where
  en : t.en = false
  ph : t.ph = .idle
  pins : t.segPin = s.segPin ∧ t.digPin = s.digPin
  outputs : t.segOut = s.segOut ∧ t.digOut = s.digOut
  trace : ∀ c ∈ t.trace, c.KeepsSuspension

/-- Every such step keeps the display frozen: no RESET comes, no TICK executes, and IDLE holds. -/
theorem step_keeps_frozenSince {s m t : State} (hs : s.FrozenSince m) (h : step m = .next t) :
    s.FrozenSince t := by
  obtain ⟨hen, hph, ⟨hsegPin, hdigPin⟩, ⟨hseg, hdig⟩, htr⟩ := hs
  have hevents : ∀ i ∈ m.nextEvents, i ≠ .reset ∧ ∀ v, i = .wrCtrl v → ctrlEn v = false := by
    unfold State.nextEvents
    cases hm : m.trace with
    | nil => simp
    | cons c rest => exact fun i => (htr c (by simp [hm])).events
  obtain ⟨u, hu, rfl⟩ := step_nextEvents h
  have hen' : u.en = false := execAll_keeps (P := fun u => u.en = false) (s := m.beginCycle _)
    (fun i hi _ _ => exec_keeps_not_en (hevents i hi).2) hen hu
  have htr' : ∀ c ∈ u.clockEdge.trace, c.KeepsSuspension :=
    fun c hc => htr c (List.mem_of_mem_tail (step_trace h ▸ hc))
  obtain ⟨hmem, -⟩ | ⟨-, hon, -⟩ | ⟨-, hd⟩ := step_display h
  · exact absurd rfl (hevents _ hmem).1
  · simp [hen] at hon
  · obtain ⟨hph', hsegPin', hdigPin', hseg', hdig'⟩ := State.pins_of_idle hph hd
    exact ⟨by simpa using hen', hph', ⟨hsegPin'.trans hsegPin, hdigPin'.trans hdigPin⟩,
      ⟨hseg'.trans hseg, hdig'.trans hdig⟩, htr'⟩

/-- Settles O60: each step of the run keeps the display frozen. -/
theorem suspendedDisplayIsFrozen : Obligations.SuspendedDisplayIsFrozen := by
  intro n s t hen hph htr h
  obtain ⟨hen', hph', ⟨hsegPin, hdigPin⟩, ⟨hseg, hdig⟩, -⟩ : s.FrozenSince t :=
    runSteps_keeps (P := s.FrozenSince) (fun _ _ => step_keeps_frozenSince)
      ⟨hen, hph, ⟨rfl, rfl⟩, ⟨rfl, rfl⟩, htr⟩ h
  exact ⟨hen', hph', hsegPin, hdigPin, hseg, hdig⟩

end Sys2Proof.Machine
